-- ==== Sys2Proof/Word.lean ====
section
/-! DEFINITION. The two word types of AES-CORE (00_scope.md R7): a register is one 32-bit word, a table entry one byte. -/

namespace Sys2Proof

/-- A byte: a table entry, or one lane of a word (R7). -/
abbrev Byte := BitVec 8

/-- A word: every register of AES-CORE is one word wide (R7, R16). -/
abbrev Word := BitVec 32

end Sys2Proof
end

