-- ==== Sys2Proof/Config.lean ====
section
/-! DEFINITION. What an instance of AES-CORE fixes: the constants the spec gives a value, and the values it leaves OPEN
(00_scope.md R6, 92_eei_decisions.md "OPEN parameters") as opaque constants without a body. Two more free values, busyRead and
latency, may depend on the whole state and so stand behind it, in Machine/State.lean. -/

namespace Sys2Proof.Config

/-- The identification constant, "AES1" in lane order (R17). -/
def idWord : Word := 0x41455331#32

/-- The default of NK_MAX, the number of KEY registers (R6). -/
def defaultNkMax : Nat := 8

/-- The default of NB_MAX, the number of BLOCK registers (R6). -/
def defaultNbMax : Nat := 8

/-- The default of SCHED_WORDS, the words of key-schedule RAM (R6). -/
def defaultSchedWords : Nat := 120

/-- FREE VALUE. `tableRamInit r off`: the byte that the table RAM entry at window byte offset `off` (0x400 + 4x for FTAB[x],
0x800 + 4x for ITAB[x]) holds after reset number `r`, until a write sets it. TABLE_RAM_INIT of R6, "a new draw ... at every
reset" (R138). Log 5. -/
opaque tableRamInit : Nat → Nat → Byte

/-- FREE VALUE. `schedInit r k`: what SCHED[k] holds after reset number `r` (R33: "unspecified"; R138). Log 6. -/
opaque schedInit : Nat → Nat → Word

/-- OPEN. AES_BASE is 0x2000 times this number (R6: "any multiple of 0x2000"). Log 10. -/
opaque aesBaseSlot : Nat

/-- AES_BASE: the base address of the register window in the host's address space (R6, R40). -/
def aesBase : Nat := 0x2000 * aesBaseSlot

end Sys2Proof.Config
end

