-- ==== Sys2Proof/Syntax.lean ====
section
/-! DEFINITION. The instructions of AES-CORE: one constructor per row of the opcode table. -/

namespace Sys2Proof

/-- What the host can put on the port (30_encoding.md R60 to R67). The first nine are the words written to CMD, the last two
the bus transactions. -/
inductive Instr where
  /-- NOP (R115): no operation. -/
  | nop
  /-- EXPAND (R90): build the Cipher State. -/
  | expand
  /-- ENCRYPT (R105): the forward engine on BLOCK. -/
  | encrypt
  /-- DECRYPT (R106): the inverse engine on BLOCK. -/
  | decrypt
  /-- RELEASE (R92): discard the Cipher State. -/
  | release
  /-- GFMUL (R80): multiply two bytes. -/
  | gfmul
  /-- SUBW_F (R81): substitute a word through the forward table. -/
  | subwF
  /-- SUBW_I (R82): substitute a word through the inverse table. -/
  | subwI
  /-- ILLEGAL (R63, R64): the CMD word `w`, which is none of the eight commands. -/
  | illegal (w : Word)
  /-- BUS_RD (R42): read word address `a`; the data field `d` is ignored (R60). -/
  | busRd (a : BitVec 11) (d : Word)
  /-- BUS_WR (R43): write `d` to word address `a`. -/
  | busWr (a : BitVec 11) (d : Word)
  deriving DecidableEq, Repr

end Sys2Proof
end

