-- ==== Sys2Proof/WellFormed.lean ====
section
/-! DEFINITION. Which terms of Instr are instructions of AES-CORE: the widths are in the types, and the word of ILLEGAL is
one of those R63 and R64 reject. -/

namespace Sys2Proof

/-- R63: a CMD word with a bit of RSV, bits 31..4, set. -/
def reservedBitsSet (w : Word) : Bool := w.extractLsb' 4 28 != 0#28

/-- R64: an OP value in 0x8..0xF, which is the codes with bit 3 set. -/
def reservedOp (w : Word) : Bool := w.getLsbD 3

/-- An instruction is well formed when, being ILLEGAL, its word is rejected by R63 or R64; every other term is well formed,
since a BUS transaction always decodes (R67). -/
def Instr.wellFormed : Instr → Bool
  | .nop => true
  | .expand => true
  | .encrypt => true
  | .decrypt => true
  | .release => true
  | .gfmul => true
  | .subwF => true
  | .subwI => true
  | .illegal w => reservedBitsSet w || reservedOp w
  | .busRd _ _ => true
  | .busWr _ _ => true

end Sys2Proof
end

