-- ==== Sys2Proof/Decode.lean ====
section
/-! DEFINITION. The two formats of 30_encoding.md (R60 BUS, R61 CMD), the decoder (R67), the encoder, and the opcode table's
numbering of bits (decodeTableWord). -/

namespace Sys2Proof

/-- The command codes of R62, as the sequencer's phase holds them (R35). -/
inductive Opcode where
  | nop | expand | encrypt | decrypt | release | gfmul | subwF | subwI
  deriving DecidableEq, Repr

/-- An encoded instruction in one of the two formats: the 32-bit word written to CMD (R61), or the 44-bit pattern of a bus
transaction (R60). -/
inductive Code where
  | cmd (w : Word)
  | bus (frame : BitVec 44)
  deriving DecidableEq, Repr

/-- Why bits are no encoded instruction; raised by `codeOfTableWord`, safe: nothing is run. -/
inductive CodeError where
  /-- a CMD word has 32 bits (R61), and a bit above them is set -/
  | cmdTooWide
  /-- a bus transaction has 44 bits (R60), and a bit above them is set -/
  | busTooWide
  deriving DecidableEq, Repr

/-- The word address of CMD: byte offset 0x00C (R41). -/
def cmdAddr : BitVec 11 := 3#11

/-- R67: the command that a CMD word names; none is Illegal. -/
def decodeOp (v : Word) : Option Opcode :=
  if reservedBitsSet v then none else
  match (v.extractLsb' 0 4).toNat with
  | 0 => some .nop
  | 1 => some .expand
  | 2 => some .encrypt
  | 3 => some .decrypt
  | 4 => some .release
  | 5 => some .gfmul
  | 6 => some .subwF
  | 7 => some .subwI
  | _ => none

/-- The instruction of a command code. -/
def instrOfOp : Opcode → Instr
  | .nop => .nop
  | .expand => .expand
  | .encrypt => .encrypt
  | .decrypt => .decrypt
  | .release => .release
  | .gfmul => .gfmul
  | .subwF => .subwF
  | .subwI => .subwI

/-- Format CMD (R61, R67): every 32-bit word is one of the eight commands or ILLEGAL. -/
def decodeCmd (v : Word) : Instr :=
  match decodeOp v with
  | some op => instrOfOp op
  | none => .illegal v

/-- Format BUS (R60): W at bit 43, A at 42..32, D at 31..0. Always decodes (R67). -/
def decodeBus (f : BitVec 44) : Instr :=
  if f.getLsbD 43 then .busWr (f.extractLsb' 32 11) (f.extractLsb' 0 32)
  else .busRd (f.extractLsb' 32 11) (f.extractLsb' 0 32)

/-- The decoder: total on both formats (R67). -/
def decode : Code → Instr
  | .cmd v => decodeCmd v
  | .bus f => decodeBus f

/-- The 44-bit pattern of a bus transaction from its fields (R60). -/
def busFrame (w : Bool) (a : BitVec 11) (d : Word) : BitVec 44 := (BitVec.ofBool w ++ a ++ d : BitVec (1 + 11 + 32))

/-- The encoder, from the tables of R60 to R62. -/
def encode : Instr → Code
  | .nop => .cmd 0x00000000#32
  | .expand => .cmd 0x00000001#32
  | .encrypt => .cmd 0x00000002#32
  | .decrypt => .cmd 0x00000003#32
  | .release => .cmd 0x00000004#32
  | .gfmul => .cmd 0x00000005#32
  | .subwF => .cmd 0x00000006#32
  | .subwI => .cmd 0x00000007#32
  | .illegal w => .cmd w
  | .busRd a d => .bus (busFrame false a d)
  | .busWr a d => .bus (busFrame true a d)

/-- The bits of an opcode-table row, numbered as the table numbers them: a row of at most 32 bits is a CMD word, a longer one a
bus transaction of 44 bits. Bits above the row's own are 0, so a set bit above the format's width is rejected by name. Log 9. -/
def codeOfTableWord (nbits w : Nat) : Except CodeError Code :=
  if nbits ≤ 32 then
    if w < 2 ^ 32 then .ok (.cmd (BitVec.ofNat 32 w)) else .error .cmdTooWide
  else
    if w < 2 ^ 44 then .ok (.bus (BitVec.ofNat 44 w)) else .error .busTooWide

/-- The instruction that the decoder reads from the bits of a table row; none where they are rejected. -/
def decodeTableWord (nbits w : Nat) : Option Instr :=
  match codeOfTableWord nbits w with
  | .ok c => some (decode c)
  | .error _ => none

/-- The bus transaction that puts a code on the port: a CMD word is one BUS write to CMD (R69), a bus transaction is itself. -/
def frameOfCode : Code → BitVec 44
  | .cmd w => busFrame true cmdAddr w
  | .bus f => f

end Sys2Proof
end

