-- ==== Sys2Proof/Machine/State.lean ====
section
/-! DEFINITION. The state of AES-CORE (10_state.md R15), the input queue the model adds (00_scope.md R8), the reasons a step
could stop (none, R123), and the state after reset (R37). -/

namespace Sys2Proof.Machine

/-- AES-CORE has no fault (R123: "A model therefore has no fault outcome"), so no constructor: nothing raises one. -/
inductive Fault
  deriving DecidableEq, Repr

/-- Why a step could have no meaning. -/
inductive Refusal where
  /-- Raised by an arm of exec whose instruction has no meaning yet; safe. No arm of this model raises it. -/
  | notModelled (mnemonic : String)
  deriving DecidableEq, Repr

/-- The implementation parameters of an instance (R6), which PARAMS reports (R34). No step changes them. Log 1. -/
structure Params where
  nkMax : Nat
  nbMax : Nat
  schedWords : Nat
  deriving DecidableEq, Repr

/-- The fields of CFG (R18); reserved bits are not stored (R16). -/
structure Cfg where
  nk : BitVec 4
  nb : BitVec 4
  nr : BitVec 5
  fsel : Bool
  isel : Bool
  deriving DecidableEq, Repr

/-- The fields of STATUS (R22); reserved bits are not stored (R16). -/
structure Status where
  busy : Bool
  valid : Bool
  done : Bool
  busyErr : Bool
  lockErr : Bool
  err : BitVec 4
  deriving DecidableEq, Repr

/-- The named values of STATUS.ERR (R125). -/
inductive ErrCode where
  | ok | illegalCmd | badConfig | noSchedule | schedulePresent | noSpace
  deriving DecidableEq, Repr

/-- The sequencer state (R35): idle, or the one accepted command in flight. -/
inductive Phase where
  | idle
  | busy (op : Opcode)
  deriving DecidableEq, Repr

/-- What the world outside does next (R8): a host bus transaction, as its 44-bit pattern (R60), or an assertion of rst
(R137). -/
inductive Input where
  | bus (frame : BitVec 44)
  | rst
  deriving DecidableEq, Repr

/-- The byte memory: the table RAMs FTAB and ITAB (R32), as cells (window byte offset, byte), offsets strictly rising, none
equal to what an unlisted entry reads as. Log 5. -/
abbrev Memory := List Host.Cell

/-- The machine's state. The first eleven fields are the spec's (R15; ID, SBOX and INV_SBOX are constants); the last five are
the model's own (logs 2, 3, 7, 8). -/
structure State where
  /-- the instance parameters, which PARAMS reads (R34) -/
  params : Params
  /-- CFG (R18) -/
  cfg : Cfg
  /-- STATUS (R22) -/
  status : Status
  /-- IRQEN.IE (R24) -/
  ie : Bool
  /-- OPERAND (R25) -/
  operand : Word
  /-- RESULT (R26) -/
  result : Word
  /-- KEY[0..NK_MAX-1] (R27) -/
  key : List Word
  /-- BLOCK[0..NB_MAX-1] (R28) -/
  block : List Word
  /-- FTAB and ITAB (R32) -/
  tables : Memory
  /-- SCHED[0..SCHED_WORDS-1] (R33) -/
  sched : List Word
  /-- phase (R35) -/
  phase : Phase
  /-- what the host and the reset input will do, the next one first (R8) -/
  inputs : List Input
  /-- how many host transactions still come before the completion step of the command in flight (R118) -/
  wait : Nat
  /-- the value the latest host read returned (R60: "whose data comes back on the return path") -/
  rdata : Word
  /-- how many free values were drawn, so that each draw is a fresh one (R118, R49) -/
  draws : Nat
  /-- which reset this is, the index of the draws of TABLE_RAM_INIT and SCHED (R138) -/
  resets : Nat
  deriving DecidableEq, Repr

/-- The reset value of CFG, 0x000A0404 (R18, R37). -/
def Cfg.reset : Cfg := { nk := 4#4, nb := 4#4, nr := 10#5, fsel := false, isel := false }

/-- The reset value of STATUS, 0 (R22, R37). -/
def Status.reset : Status :=
  { busy := false, valid := false, done := false, busyErr := false, lockErr := false, err := 0#4 }

/-- The parameters' default values (R6). -/
def Params.default : Params :=
  { nkMax := Config.defaultNkMax, nbMax := Config.defaultNbMax, schedWords := Config.defaultSchedWords }

/-- The state after reset number `r` of an instance with parameters `p` (R37). Nothing is listed in the table RAMs, so each
entry reads as the draw of this reset; SCHED is unspecified. -/
def State.resetWith (p : Params) (r : Nat) : State :=
  { params := p
    cfg := Cfg.reset
    status := Status.reset
    ie := false
    operand := 0#32
    result := 0#32
    key := List.replicate p.nkMax 0#32
    block := List.replicate p.nbMax 0#32
    tables := []
    sched := (List.range p.schedWords).map (Config.schedInit r)
    phase := .idle
    inputs := []
    wait := 0
    rdata := 0#32
    draws := 0
    resets := r }

/-- The machine right after power-on reset, with the default parameters (R37). -/
def State.reset : State := State.resetWith Params.default 0

end Sys2Proof.Machine

namespace Sys2Proof.Config

/-- FREE VALUE. `latency op s`: how many host transactions come between the acceptance of `op` at `s` and its completion step
(LATENCY of R6, R118: any finite count, 0 included). The command and the state, with its count of draws, are arguments, so the time
may depend on the data (R84, R149; U22). Log 3. -/
opaque latency : Opcode → Machine.State → Nat

/-- FREE VALUE. `busyRead a s`: the value that a host read of BLOCK, SCHED or RESULT at word address `a` returns at `s` while
BUSY = 1 (R49 `draw()`; U5: no law ties the draws together, nor to the data). Log 4. -/
opaque busyRead : BitVec 11 → Machine.State → Word

end Sys2Proof.Config
end

