-- ==== Sys2Proof/Machine/Flags.lean ====
section
/-! DEFINITION. STATUS: its word, its error codes, how each event writes it, and the interrupt output (10_state.md R22, R23;
60_exceptions.md R124 to R130; 43_command_sequencer.md R113, R114). -/

namespace Sys2Proof.Machine

/-- The code of an outcome in STATUS.ERR (R125). -/
def errCode : ErrCode → BitVec 4
  | .ok => 0x0#4
  | .illegalCmd => 0x1#4
  | .badConfig => 0x2#4
  | .noSchedule => 0x3#4
  | .schedulePresent => 0x4#4
  | .noSpace => 0x5#4

/-- STATUS as the host reads it (R22): ERR at 11..8, LOCKERR 4, BUSYERR 3, DONE 2, VALID 1, BUSY 0, every other bit 0. -/
def statusWord (st : Status) : Word :=
  (0#20 ++ st.err ++ 0#3 ++ BitVec.ofBool st.lockErr ++ BitVec.ofBool st.busyErr ++ BitVec.ofBool st.done
    ++ BitVec.ofBool st.valid ++ BitVec.ofBool st.busy : BitVec (20 + 4 + 3 + 1 + 1 + 1 + 1 + 1))

/-- A host write to STATUS clears each W1C bit written as 1 and ignores the rest (R23). -/
def statusW1C (d : Word) (st : Status) : Status :=
  { st with
    done := st.done && !d.getLsbD 2
    busyErr := st.busyErr && !d.getLsbD 3
    lockErr := st.lockErr && !d.getLsbD 4 }

/-- A rejection writes ERR and DONE (R124). -/
def statusReject (c : ErrCode) (st : Status) : Status := { st with err := errCode c, done := true }

/-- An acceptance sets BUSY and clears DONE (R113). -/
def statusAccept (st : Status) : Status := { st with busy := true, done := false }

/-- A completion step writes ERR = OK, DONE = 1, BUSY = 0 (R114). -/
def statusComplete (st : Status) : Status := { st with err := errCode .ok, done := true, busy := false }

/-- The interrupt output: irq = IRQEN.IE & STATUS.DONE, at every step (R130). -/
def irq (s : State) : Bool := s.ie && s.status.done

end Sys2Proof.Machine
end

