-- ==== Sys2Proof/Machine/Operands.lean ====
section
/-! DEFINITION. The operand forms: byte lanes of a word (00_scope.md R10), the fields of CFG and PARAMS (10_state.md R18, R34,
30_encoding.md R66), the operands of GFMUL (R80), and the register map (20_memory.md R40, R41). -/

namespace Sys2Proof.Machine

/-- `lane w k` is bits 31-8k .. 24-8k: lane 0 is the most significant byte (R10). -/
def lane (w : Word) (k : Nat) : Byte := w.extractLsb' (24 - 8 * k) 8

/-- The word of four lanes, lane 0 first (R9, R10). -/
def ofLanes (a b c d : Byte) : Word := (a ++ b ++ c ++ d : BitVec (8 + 8 + 8 + 8))

/-- CFG as the host reads it (R18): ISEL 25, FSEL 24, NR 20..16, NB 11..8, NK 3..0, every other bit 0. -/
def cfgWord (c : Cfg) : Word :=
  (0#6 ++ BitVec.ofBool c.isel ++ BitVec.ofBool c.fsel ++ 0#3 ++ c.nr ++ 0#4 ++ c.nb ++ 0#4 ++ c.nk
    : BitVec (6 + 1 + 1 + 3 + 5 + 4 + 4 + 4 + 4))

/-- What a write of `v` to CFG stores (R19). -/
def cfgOfWord (v : Word) : Cfg :=
  { nk := v.extractLsb' 0 4
    nb := v.extractLsb' 8 4
    nr := v.extractLsb' 16 5
    fsel := v.getLsbD 24
    isel := v.getLsbD 25 }

/-- PARAMS as the host reads it (R34): SCHED_WORDS 26..16, NB_MAX 11..8, NK_MAX 3..0, every other bit 0. -/
def paramsWord (p : Params) : Word :=
  (0#5 ++ BitVec.ofNat 11 p.schedWords ++ 0#4 ++ BitVec.ofNat 4 p.nbMax ++ 0#4 ++ BitVec.ofNat 4 p.nkMax
    : BitVec (5 + 11 + 4 + 4 + 4 + 4))

/-- IRQEN as the host reads it: IE at bit 0 (R24). -/
def irqenWord (ie : Bool) : Word := (0#31 ++ BitVec.ofBool ie : BitVec (31 + 1))

/-- GFMUL's operand a, OPERAND[7:0] (R25, R80). -/
def gfmulA (operand : Word) : Byte := operand.extractLsb' 0 8

/-- GFMUL's operand b, OPERAND[15:8] (R25, R80). -/
def gfmulB (operand : Word) : Byte := operand.extractLsb' 8 8

/-- `key_length` (R12). -/
def Cfg.NK (c : Cfg) : Nat := c.nk.toNat

/-- `block_size` (R12). -/
def Cfg.NB (c : Cfg) : Nat := c.nb.toNat

/-- `rounds` (R12). -/
def Cfg.NR (c : Cfg) : Nat := c.nr.toNat

/-- The words of the Key Schedule, NB*(NR+1) (R13, R33). -/
def Cfg.words (c : Cfg) : Nat := c.NB * (c.NR + 1)

/-- The byte offset in the window of word address `a` (R40). -/
def byteOffset (a : BitVec 11) : Nat := 4 * a.toNat

/-- The host address of word address `a` (R40). No rule of the core reads it: the port carries the word address. Log 10. -/
def hostAddress (a : BitVec 11) : Nat := Config.aesBase + byteOffset a

/-- What a word address names (R41). -/
inductive Target where
  | id | params | cfg | cmd | status | irqen | operand | result
  | key (k : Nat) | block (k : Nat) | ftab (x : Byte) | itab (x : Byte) | sched (k : Nat)
  | unmapped
  deriving DecidableEq, Repr

/-- The window offset of FTAB[0] (R41). -/
def ftabBase : Nat := 0x400

/-- The window offset of ITAB[0] (R41). -/
def itabBase : Nat := 0x800

/-- The window offset of a table entry: entry x at base + 4x (R41, R53). -/
def tableOffset (base : Nat) (x : Byte) : Nat := base + 4 * x.toNat

/-- The registers at offsets 0x000 to 0x01C (R41). -/
def controlTarget (off : Nat) : Target :=
  match off with
  | 0x000 => .id
  | 0x004 => .params
  | 0x008 => .cfg
  | 0x00C => .cmd
  | 0x010 => .status
  | 0x014 => .irqen
  | 0x018 => .operand
  | 0x01C => .result
  | _ => .unmapped

/-- The array words: KEY, BLOCK and SCHED end where their parameter says, and their slots are unmapped behind (R41). -/
def keyTarget (p : Params) (k : Nat) : Target := if k < p.nkMax then .key k else .unmapped

/-- As `keyTarget`, for the BLOCK slot (R41). -/
def blockTarget (p : Params) (k : Nat) : Target := if k < p.nbMax then .block k else .unmapped

/-- As `keyTarget`, for the SCHED slot (R41). -/
def schedTarget (p : Params) (k : Nat) : Target := if k < p.schedWords then .sched k else .unmapped

/-- The register map over byte offsets (R41). -/
def offsetTarget (p : Params) (off : Nat) : Target :=
  if off < 0x040 then controlTarget off
  else if off < 0x080 then keyTarget p ((off - 0x040) / 4)
  else if off < 0x0C0 then blockTarget p ((off - 0x080) / 4)
  else if off < 0x400 then .unmapped
  else if off < 0x800 then .ftab (BitVec.ofNat 8 ((off - 0x400) / 4))
  else if off < 0xC00 then .itab (BitVec.ofNat 8 ((off - 0x800) / 4))
  else if off < 0x1000 then .unmapped
  else schedTarget p ((off - 0x1000) / 4)

/-- What a word address names (R40, R41). -/
def target (p : Params) (a : BitVec 11) : Target := offsetTarget p (byteOffset a)

/-- The targets whose read is free while BUSY = 1: BLOCK[k], SCHED[k] and RESULT (R49). -/
def Target.volatile : Target → Bool
  | .block _ => true
  | .sched _ => true
  | .result => true
  | .id | .params | .cfg | .cmd | .status | .irqen | .operand | .key _ | .ftab _ | .itab _ | .unmapped => false

/-- The targets that are locked while VALID = 1: CFG, FTAB[x] and ITAB[x] (R43, R50). -/
def Target.locked : Target → Bool
  | .cfg => true
  | .ftab _ => true
  | .itab _ => true
  | .id | .params | .cmd | .status | .irqen | .operand | .result | .key _ | .block _ | .sched _ | .unmapped => false

end Sys2Proof.Machine
end

