-- ==== Sys2Proof/Machine/Ops.lean ====
section
/-! DEFINITION. The named operations over the byte memory and the registers; the one way a failure is reported (a rejected
command R124, a dropped write R127 and R128: AES-CORE takes no exception, R123, R131); acceptance of a command (R113); the
reset step (R138). -/

namespace Sys2Proof.Machine

/-! ## The byte memory (FTAB and ITAB) -/

/-- The byte listed at an offset, if any. -/
def Memory.lookup (m : Memory) (off : Nat) : Option Byte :=
  match m with
  | [] => none
  | (b, v) :: rest => if b = off then some v else Memory.lookup rest off

/-- Lists `v` at `off`, keeping the offsets in rising order. -/
def Memory.insert (m : Memory) (off : Nat) (v : Byte) : Memory :=
  match m with
  | [] => [(off, v)]
  | (b, u) :: rest =>
    if off < b then (off, v) :: (b, u) :: rest
    else if off = b then (off, v) :: rest
    else (b, u) :: Memory.insert rest off v

/-- Takes `off` off the list. -/
def Memory.erase (m : Memory) (off : Nat) : Memory := m.filter fun c => c.1 != off

/-- Reads a byte; `unlisted` says what an unlisted offset reads as. -/
def Memory.read (unlisted : Nat → Byte) (m : Memory) (off : Nat) : Byte := (Memory.lookup m off).getD (unlisted off)

/-- Writes a byte and keeps the canonical form: writing what an unlisted offset reads as takes the entry off the list. -/
def Memory.write (unlisted : Nat → Byte) (m : Memory) (off : Nat) (v : Byte) : Memory :=
  if v = unlisted off then Memory.erase m off else Memory.insert m off v

/-- Every listed offset is above `lo`, in strictly rising order. -/
def Memory.risingFrom (lo : Nat) (m : Memory) : Bool :=
  match m with
  | [] => true
  | (b, _) :: rest => decide (lo ≤ b) && Memory.risingFrom (b + 1) rest

/-- Is this the window offset of an entry of FTAB or ITAB (R41)? -/
def Memory.mapped (off : Nat) : Bool := decide (ftabBase ≤ off) && decide (off < 0xC00) && decide (off % 4 = 0)

/-- The canonical form: offsets strictly rising, each one of FTAB or ITAB, no entry equal to what it reads as unlisted. -/
def Memory.wf (unlisted : Nat → Byte) (m : Memory) : Bool :=
  Memory.risingFrom 0 m && m.all (fun c => Memory.mapped c.1 && c.2 != unlisted c.1)

/-- What an unlisted table entry reads as: the draw of TABLE_RAM_INIT of the latest reset (R37, R138). Log 5. -/
def State.unlisted (s : State) : Nat → Byte := Config.tableRamInit s.resets

/-- The entry of a table RAM at index `x` (R53). -/
def readTable (s : State) (base : Nat) (x : Byte) : Byte := Memory.read s.unlisted s.tables (tableOffset base x)

/-- Stores an entry of a table RAM (R53). -/
def writeTable (base : Nat) (x v : Byte) (s : State) : State :=
  { s with tables := Memory.write s.unlisted s.tables (tableOffset base x) v }

/-! ## Registers -/

/-- Stores CFG (R19). -/
def writeCfg (v : Word) (s : State) : State := { s with cfg := cfgOfWord v }

/-- A write to STATUS (R23). -/
def writeStatus (v : Word) (s : State) : State := { s with status := statusW1C v s.status }

/-- A write to IRQEN (R24, R43). -/
def writeIrqen (v : Word) (s : State) : State := { s with ie := v.getLsbD 0 }

/-- A write to OPERAND (R25). -/
def writeOperand (v : Word) (s : State) : State := { s with operand := v }

/-- A write to KEY[k] (R51). -/
def writeKey (k : Nat) (v : Word) (s : State) : State := { s with key := s.key.set k v }

/-- A write to BLOCK[k] (R51). -/
def writeBlock (k : Nat) (v : Word) (s : State) : State := { s with block := s.block.set k v }

/-- RESULT, written by the primitive commands only (R26). -/
def setResult (v : Word) (s : State) : State := { s with result := v }

/-- The words of SCHED from 0 on become `ws`; the words behind them stay (R90). -/
def setSchedPrefix (ws : List Word) (s : State) : State := { s with sched := ws ++ s.sched.drop ws.length }

/-- The words of BLOCK from 0 on become `ws`; the words behind them stay (R105, R106). -/
def setBlockPrefix (ws : List Word) (s : State) : State := { s with block := ws ++ s.block.drop ws.length }

/-- STATUS.VALID (R90, R92). -/
def setValid (b : Bool) (s : State) : State := { s with status := { s.status with valid := b } }

/-- The value of a host read appears on the return path (R60). Log 7. -/
def setRdata (v : Word) (s : State) : State := { s with rdata := v }

/-! ## Free values -/

/-- What a free value may depend on: the whole state but for the words of SCHED that no Cipher State holds, which are
unobservable (R33, R52, R138). Logs 3, 4. -/
def State.observed (s : State) : State := { s with sched := if s.status.valid then s.sched.take s.cfg.words else [] }

/-! ## Reporting a failure, accepting a command -/

/-- `raise Reject(code)` (R124): ERR and DONE, and nothing else. -/
def reject (c : ErrCode) (s : State) : State := { s with status := statusReject c s.status }

/-- A host write dropped because BUSY = 1 (R48, R127). -/
def dropBusy (s : State) : State := { s with status := { s.status with busyErr := true } }

/-- A host write dropped because the Cipher State is locked (R50, R128). -/
def dropLocked (s : State) : State := { s with status := { s.status with lockErr := true } }

/-- A host write: dropped while BUSY = 1, whatever its address (R48); else `k`. -/
def whenNotBusy (k : State → State) (s : State) : State := if s.status.busy then dropBusy s else k s

/-- Acceptance (R113): phase, BUSY and DONE; the command's LATENCY is drawn (R118), and may depend on the command and its data
(R84, R149; log 3). -/
def accept (op : Opcode) (s : State) : State :=
  { s with
    phase := .busy op
    status := statusAccept s.status
    wait := Config.latency op s.observed
    draws := s.draws + 1 }

/-- Acceptance of a command that needs a Cipher State (R113): without one it is rejected with NO_SCHEDULE. -/
def acceptIfValid (op : Opcode) (s : State) : State :=
  if s.status.valid then accept op s else reject .noSchedule s

/-! ## Reset and the input queue -/

/-- A reset step (R138): the reset state with new draws of the RAMs, which aborts a command in flight (R139). The host's queue,
the return path, the count of draws and the instance's parameters are not AES-CORE's to reset. Log 8. -/
def resetStep (s : State) : State :=
  { State.resetWith s.params (s.resets + 1) with inputs := s.inputs, rdata := s.rdata, draws := s.draws }

/-- The next input is taken off the queue; a bus transaction is one of those that LATENCY counts (R118). -/
def takeInput (rest : List Input) (s : State) : State := { s with inputs := rest, wait := s.wait - 1 }

end Sys2Proof.Machine
end

