-- ==== Sys2Proof/Machine/Field.lean ====
section
/-! DEFINITION. GF(2^8) arithmetic and the substitution primitives (40_field_and_substitution.md R73 to R79), with the meanings
of the three commands that expose them: GFMUL (R80), SUBW_F (R81), SUBW_I (R82). -/

namespace Sys2Proof.Machine

/-- One left shift of the multiplicand, folded back with 0x1B when a bit is shifted out (R73). -/
def doubleMod (a : Byte) : Byte := if a.getLsbD 7 then (a <<< 1) ^^^ 0x1B#8 else a <<< 1

/-- The loop of R73: `n` turns left, multiplicand `a`, multiplier `b`, product so far `p`. -/
def multiplyLoop : Nat → Byte → Byte → Byte → Byte
  | 0, _, _, p => p
  | n + 1, a, b, p =>
    if a = 0#8 ∨ b = 0#8 then p
    else multiplyLoop n (doubleMod a) (b >>> 1) (if b.getLsbD 0 then p ^^^ a else p)

/-- `multiply(a, b)`: the product in GF(2^8), by repeated doubling (R73). -/
def multiply (a b : Byte) : Byte := multiplyLoop 8 a b 0#8

/-- `xtime(a)` is multiply(a, 0x02) (R74). -/
def xtime (a : Byte) : Byte := multiply a 0x02#8

/-- `substitute_byte(T, x)` (R76). -/
def substituteByte (t : Byte → Byte) (x : Byte) : Byte := t x

/-- `substitute_word(T, w)`: each lane through the table (R77). -/
def substituteWord (t : Byte → Byte) (w : Word) : Word :=
  ofLanes (substituteByte t (lane w 0)) (substituteByte t (lane w 1)) (substituteByte t (lane w 2)) (substituteByte t (lane w 3))

/-- `substitute_block(T, s)`: each word of the block (R78). -/
def substituteBlock (t : Byte → Byte) (s : List Word) : List Word := s.map (substituteWord t)

/-! ## The commands -/

/-- GFMUL needs no Cipher State: no check at issue (R80, R113). -/
def issueGfmul (s : State) : State := accept .gfmul s

/-- GFMUL's completion (R80): RESULT is the product of OPERAND[7:0] and OPERAND[15:8], zero-extended. -/
def performGfmul (s : State) : State :=
  setResult ((multiply (gfmulA s.operand) (gfmulB s.operand)).setWidth 32) s

/-- GFMUL written to CMD (R80). -/
def execGfmul (s : State) : Host.Outcome State Fault Refusal := .next (whenNotBusy issueGfmul s)

/-- SUBW_F needs no Cipher State: no check at issue (R81, R113). -/
def issueSubwF (s : State) : State := accept .subwF s

/-- SUBW_F's completion (R81): RESULT is OPERAND through FT. -/
def performSubwF (s : State) : State := setResult (substituteWord (forwardTable s) s.operand) s

/-- SUBW_F written to CMD (R81). -/
def execSubwF (s : State) : Host.Outcome State Fault Refusal := .next (whenNotBusy issueSubwF s)

/-- SUBW_I needs no Cipher State: no check at issue (R82, R113). -/
def issueSubwI (s : State) : State := accept .subwI s

/-- SUBW_I's completion (R82): RESULT is OPERAND through IT. -/
def performSubwI (s : State) : State := setResult (substituteWord (inverseTable s) s.operand) s

/-- SUBW_I written to CMD (R82). -/
def execSubwI (s : State) : Host.Outcome State Fault Refusal := .next (whenNotBusy issueSubwI s)

end Sys2Proof.Machine
end

