-- ==== Sys2Proof/Machine/KeySchedule.lean ====
section
/-! DEFINITION. The key schedule expander (41_key_schedule.md R85 to R89) and the meanings of EXPAND (R90, R91) and RELEASE
(R92). -/

namespace Sys2Proof.Machine

/-- `RotWord(w)`: the lanes move left by one (R85). -/
def rotWord (w : Word) : Word := ofLanes (lane w 1) (lane w 2) (lane w 3) (lane w 0)

/-- `rcAfter n` is rc(n+1) (R86): rc(1) = 0x01, rc(j+1) = xtime(rc(j)). -/
def rcAfter : Nat → Byte
  | 0 => 0x01#8
  | n + 1 => xtime (rcAfter n)

/-- `rc(j)`, for j ≥ 1 (R86). The recurrence never asks for j = 0, which is given rc(1)'s value. Log 14. -/
def rc (j : Nat) : Byte := rcAfter (j - 1)

/-- `Rcon(j)`: rc(j) in lane 0 (R86). -/
def rcon (j : Nat) : Word := ofLanes (rc j) 0#8 0#8 0#8

/-- The word that R88 XORs into SCHED[i - NK], from prev = SCHED[i-1]. -/
def schedTemp (ft : Byte → Byte) (nk i : Nat) (prev : Word) : Word :=
  if i % nk = 0 then substituteWord ft (rotWord prev) ^^^ rcon (i / nk)
  else if 6 < nk ∧ i % nk = 4 then substituteWord ft prev
  else prev

/-- SCHED[i] by R88, from the words before it (`ws`, so i is its length). -/
def schedNext (ft : Byte → Byte) (nk : Nat) (ws : List Word) : Word :=
  ws.getD (ws.length - nk) 0#32 ^^^ schedTemp ft nk ws.length (ws.getD (ws.length - 1) 0#32)

/-- Appends `n` words by the recurrence (R88). -/
def expandLoop (ft : Byte → Byte) (nk : Nat) : Nat → List Word → List Word
  | 0, ws => ws
  | n + 1, ws => expandLoop ft nk n (ws ++ [schedNext ft nk ws])

/-- `expand(KEY, NK, NR, NB, FT)`: the raw key (R87), then the recurrence up to NB*(NR+1) words (R88, R89). -/
def expand (key : List Word) (c : Cfg) (ft : Byte → Byte) : List Word :=
  expandLoop ft c.NK (c.words - c.NK) (key.take c.NK)

/-- The first check of EXPAND that fails, in the order of R91; none accepts. -/
def expandCheck (s : State) : Option ErrCode :=
  if s.status.valid then some .schedulePresent
  else if s.cfg.NK < 1 ∨ s.params.nkMax < s.cfg.NK ∨ s.cfg.NB < 1 ∨ s.params.nbMax < s.cfg.NB ∨ s.cfg.NR < 1
      ∨ s.cfg.words < s.cfg.NK then some .badConfig
  else if s.params.schedWords < s.cfg.words then some .noSpace
  else none

/-- EXPAND's acceptance (R91). -/
def issueExpand (s : State) : State :=
  match expandCheck s with
  | some c => reject c s
  | none => accept .expand s

/-- EXPAND's completion (R90): SCHED[0..NB*(NR+1)-1] is the expansion, and VALID is set. -/
def performExpand (s : State) : State := setValid true (setSchedPrefix (expand s.key s.cfg (forwardTable s)) s)

/-- EXPAND written to CMD (R90, R91). -/
def execExpand (s : State) : Host.Outcome State Fault Refusal := .next (whenNotBusy issueExpand s)

/-- RELEASE's acceptance (R92). -/
def issueRelease (s : State) : State := acceptIfValid .release s

/-- RELEASE's completion (R92): VALID is cleared; SCHED keeps its contents. -/
def performRelease (s : State) : State := setValid false s

/-- RELEASE written to CMD (R92). -/
def execRelease (s : State) : Host.Outcome State Fault Refusal := .next (whenNotBusy issueRelease s)

end Sys2Proof.Machine
end

