-- ==== Sys2Proof/Machine/Rounds.lean ====
section
/-! DEFINITION. Block geometry, Mix-Columns, AddRoundKey, the forward and inverse round engines (42_round_engines.md R97 to
R104), and the meanings of ENCRYPT (R105) and DECRYPT (R106). A block is the list of its NB words. -/

namespace Sys2Proof.Machine

/-- Cell (r, c) of the byte matrix: lane r of column c (R97). -/
def cell (s : List Word) (r c : Nat) : Byte := lane (s.getD c 0#32) r

/-- Column (c - r) mod nb, with a result in 0..nb-1 (R99). -/
def colBefore (nb c r : Nat) : Nat := (c + (nb - r % nb)) % nb

/-- `ShiftRows(s)`: new cell (r, c) is old cell (r, (c + r) mod NB) (R98). -/
def shiftRows (s : List Word) : List Word :=
  (List.range s.length).map fun c =>
    ofLanes (cell s 0 c) (cell s 1 ((c + 1) % s.length)) (cell s 2 ((c + 2) % s.length)) (cell s 3 ((c + 3) % s.length))

/-- `InvShiftRows(s)`: new cell (r, c) is old cell (r, (c - r) mod NB) (R99). -/
def invShiftRows (s : List Word) : List Word :=
  (List.range s.length).map fun c =>
    ofLanes (cell s 0 c) (cell s 1 (colBefore s.length c 1)) (cell s 2 (colBefore s.length c 2))
      (cell s 3 (colBefore s.length c 3))

/-- One lane of a column times one row of the forward matrix: coefficients in the order of the lanes (R100, R101). -/
def dotColumn (k0 k1 k2 k3 : Byte) (w : Word) : Byte :=
  multiply k0 (lane w 0) ^^^ multiply k1 (lane w 1) ^^^ multiply k2 (lane w 2) ^^^ multiply k3 (lane w 3)

/-- `MixCol(w)`: coefficients 2,3,1,1 / 1,2,3,1 / 1,1,2,3 / 3,1,1,2; a term the rule writes without multiply has coefficient 1,
"Multiplying by 1 is the identity" (R100). -/
def mixCol (w : Word) : Word :=
  ofLanes (dotColumn 2#8 3#8 1#8 1#8 w) (dotColumn 1#8 2#8 3#8 1#8 w) (dotColumn 1#8 1#8 2#8 3#8 w) (dotColumn 3#8 1#8 1#8 2#8 w)

/-- `InvMixCol(w)`: coefficients 14,11,13,9 / 9,14,11,13 / 13,9,14,11 / 11,13,9,14 (R101). -/
def invMixCol (w : Word) : Word :=
  ofLanes (dotColumn 14#8 11#8 13#8 9#8 w) (dotColumn 9#8 14#8 11#8 13#8 w) (dotColumn 13#8 9#8 14#8 11#8 w)
    (dotColumn 11#8 13#8 9#8 14#8 w)

/-- `MixColumns(s)` (R100). -/
def mixColumns (s : List Word) : List Word := s.map mixCol

/-- `InvMixColumns(s)` (R101). -/
def invMixColumns (s : List Word) : List Word := s.map invMixCol

/-- `AddRoundKey(s, r)`: column c is XORed with SCHED[r*NB + c] (R102). -/
def addRoundKey (sched : List Word) (nb r : Nat) (s : List Word) : List Word :=
  (List.range s.length).map fun c => s.getD c 0#32 ^^^ sched.getD (r * nb + c) 0#32

/-- One round of the forward loop (R103 step 2). -/
def cipherRound (ft : Byte → Byte) (sched : List Word) (nb round : Nat) (s : List Word) : List Word :=
  addRoundKey sched nb round (mixColumns (shiftRows (substituteBlock ft s)))

/-- `for round = 1 to n` of the forward loop (R103 step 2, with n = NR-1). -/
def cipherRounds (ft : Byte → Byte) (sched : List Word) (nb : Nat) : Nat → List Word → List Word
  | 0, s => s
  | n + 1, s => cipherRound ft sched nb (n + 1) (cipherRounds ft sched nb n s)

/-- `Cipher(s)`, the forward round engine (R103). -/
def cipher (ft : Byte → Byte) (sched : List Word) (nb nr : Nat) (s : List Word) : List Word :=
  addRoundKey sched nb nr
    (shiftRows (substituteBlock ft (cipherRounds ft sched nb (nr - 1) (addRoundKey sched nb 0 s))))

/-- One round of the inverse loop (R104 step 2). -/
def invCipherRound (it : Byte → Byte) (sched : List Word) (nb round : Nat) (s : List Word) : List Word :=
  invMixColumns (addRoundKey sched nb round (substituteBlock it (invShiftRows s)))

/-- `for round = n downto 1` of the inverse loop (R104 step 2, with n = NR-1). -/
def invCipherRounds (it : Byte → Byte) (sched : List Word) (nb : Nat) : Nat → List Word → List Word
  | 0, s => s
  | n + 1, s => invCipherRounds it sched nb n (invCipherRound it sched nb (n + 1) s)

/-- `InvCipher(s)`, the inverse round engine (R104), its step 3 in the document's order (90_conflicts.md C5). -/
def invCipher (it : Byte → Byte) (sched : List Word) (nb nr : Nat) (s : List Word) : List Word :=
  addRoundKey sched nb 0
    (invShiftRows (substituteBlock it (invCipherRounds it sched nb (nr - 1) (addRoundKey sched nb nr s))))

/-! ## The commands -/

/-- BLOCK[0..NB-1] (R28). -/
def activeBlock (s : State) : List Word := s.block.take s.cfg.NB

/-- ENCRYPT's acceptance: NO_SCHEDULE without a Cipher State (R105). -/
def issueEncrypt (s : State) : State := acceptIfValid .encrypt s

/-- ENCRYPT's completion (R105): BLOCK[0..NB-1] becomes Cipher of it. -/
def performEncrypt (s : State) : State :=
  setBlockPrefix (cipher (forwardTable s) s.sched s.cfg.NB s.cfg.NR (activeBlock s)) s

/-- ENCRYPT written to CMD (R105). -/
def execEncrypt (s : State) : Host.Outcome State Fault Refusal := .next (whenNotBusy issueEncrypt s)

/-- DECRYPT's acceptance: NO_SCHEDULE without a Cipher State (R106). -/
def issueDecrypt (s : State) : State := acceptIfValid .decrypt s

/-- DECRYPT's completion (R106): BLOCK[0..NB-1] becomes InvCipher of it. -/
def performDecrypt (s : State) : State :=
  setBlockPrefix (invCipher (inverseTable s) s.sched s.cfg.NB s.cfg.NR (activeBlock s)) s

/-- DECRYPT written to CMD (R106). -/
def execDecrypt (s : State) : Host.Outcome State Fault Refusal := .next (whenNotBusy issueDecrypt s)

end Sys2Proof.Machine
end

