-- ==== Sys2Proof/Machine/Sequencer.lean ====
section
/-! DEFINITION. The command sequencer (43_command_sequencer.md R113 to R118): issue, the completion step, which agent moves
next, and the meanings of NOP (R115) and of an illegal CMD word (R63, R64). -/

namespace Sys2Proof.Machine

/-- NOP is always accepted (R115). -/
def issueNop (s : State) : State := accept .nop s

/-- NOP's completion does nothing besides the status update (R115). -/
def performNop (s : State) : State := s

/-- NOP written to CMD (R115). -/
def execNop (s : State) : Host.Outcome State Fault Refusal := .next (whenNotBusy issueNop s)

/-- An illegal word is rejected with ILLEGAL_CMD, whatever it is (R63, R64). -/
def issueIllegal (_w : Word) (s : State) : State := reject .illegalCmd s

/-- An illegal word written to CMD (R63, R64). -/
def execIllegal (w : Word) (s : State) : Host.Outcome State Fault Refusal := .next (whenNotBusy (issueIllegal w) s)

/-- The checks and the acceptance of one command (R113). -/
def issueOp (op : Opcode) (s : State) : State :=
  match op with
  | .nop => issueNop s
  | .expand => issueExpand s
  | .encrypt => issueEncrypt s
  | .decrypt => issueDecrypt s
  | .release => issueRelease s
  | .gfmul => issueGfmul s
  | .subwF => issueSubwF s
  | .subwI => issueSubwI s

/-- `IssueCommand(v)` (R113), of a write to CMD that is not dropped. -/
def issueCommand (v : Word) (s : State) : State :=
  match decodeOp v with
  | some op => issueOp op s
  | none => issueIllegal v s

/-- `perform op`: the pseudocode of op's rule (R114). -/
def perform (op : Opcode) (s : State) : State :=
  match op with
  | .nop => performNop s
  | .expand => performExpand s
  | .encrypt => performEncrypt s
  | .decrypt => performDecrypt s
  | .release => performRelease s
  | .gfmul => performGfmul s
  | .subwF => performSubwF s
  | .subwI => performSubwI s

/-- The status update of a completion step (R114). -/
def finish (s : State) : State := { s with status := statusComplete s.status, phase := .idle }

/-- `Complete()`: perform the command in flight, then the status update, in one step (R114). Log 13. -/
def complete (op : Opcode) (s : State) : State := finish (perform op s)

/-- What happens next (R8). -/
inductive Move where
  /-- the sequencer's completion step -/
  | completion (op : Opcode)
  /-- a host transaction; `rest` is what stays in the queue -/
  | host (frame : BitVec 44) (rest : List Input)
  /-- an assertion of rst -/
  | reset (rest : List Input)
  /-- no agent moves: nothing is pending and no command is in flight -/
  | none
  deriving DecidableEq, Repr

/-- The next input as a move. -/
def inputMove (inputs : List Input) : Move :=
  match inputs with
  | [] => .none
  | .bus f :: rest => .host f rest
  | .rst :: rest => .reset rest

/-- Which agent moves next. A command in flight completes once its LATENCY of host transactions has passed, or when no input is
pending (R118: the completion step stays enabled until it is taken, and it is taken). Logs 2, 3. -/
def nextMove (s : State) : Move :=
  match s.phase with
  | .idle => inputMove s.inputs
  | .busy op => if s.wait = 0 ∨ s.inputs = [] then .completion op else inputMove s.inputs

/-- Puts a transaction at the head of the queue so that the very next move is this one: before a completion step, if a command
is in flight. -/
def pushTransaction (frame : BitVec 44) (s : State) : State :=
  { s with
    inputs := .bus frame :: s.inputs
    wait := match s.phase with
      | .idle => s.wait
      | .busy _ => max s.wait 1 }

end Sys2Proof.Machine
end

