-- ==== Sys2Proof/Machine/Bus.lean ====
section
/-! DEFINITION. Host reads and writes of the register window (20_memory.md R42, R43) and the meanings of BUS_RD and BUS_WR. -/

namespace Sys2Proof.Machine

/-- `SchedView(k)` (R52): a word of the Key Schedule that the Cipher State holds, else 0. -/
def schedView (s : State) (k : Nat) : Word :=
  if s.status.valid ∧ k < s.cfg.words then s.sched.getD k 0#32 else 0#32

/-- The value of a target while its read is not free (R42). -/
def readTarget (s : State) (t : Target) : Word :=
  match t with
  | .id => Config.idWord
  | .params => paramsWord s.params
  | .cfg => cfgWord s.cfg
  | .cmd => 0#32
  | .status => statusWord s.status
  | .irqen => irqenWord s.ie
  | .operand => s.operand
  | .result => s.result
  | .key k => s.key.getD k 0#32
  | .block k => s.block.getD k 0#32
  | .ftab x => (readTable s ftabBase x).setWidth 32
  | .itab x => (readTable s itabBase x).setWidth 32
  | .sched k => schedView s k
  | .unmapped => 0#32

/-- A read whose value is free: `draw()` (R49, log 4). -/
def freeRead (a : BitVec 11) (s : State) : State := { s with rdata := Config.busyRead a s.observed, draws := s.draws + 1 }

/-- `BusRead(A)` (R42): BLOCK, SCHED and RESULT are a fresh free value while BUSY = 1 (R49, log 4); no other effect than the
value on the return path (R54). -/
def busRead (a : BitVec 11) (s : State) : State :=
  if s.status.busy ∧ (target s.params a).volatile then freeRead a s
  else setRdata (readTarget s (target s.params a)) s

/-- A write to a target that is neither dropped nor locked (R43). -/
def writeTarget (t : Target) (v : Word) (s : State) : State :=
  match t with
  | .cfg => writeCfg v s
  | .cmd => issueCommand v s
  | .status => writeStatus v s
  | .irqen => writeIrqen v s
  | .operand => writeOperand v s
  | .key k => writeKey k v s
  | .block k => writeBlock k v s
  | .ftab x => writeTable ftabBase x (v.extractLsb' 0 8) s
  | .itab x => writeTable itabBase x (v.extractLsb' 0 8) s
  | .id => s
  | .params => s
  | .result => s
  | .sched _ => s
  | .unmapped => s

/-- The lock (R50), then the target (R43). -/
def writeUnlocked (a : BitVec 11) (v : Word) (s : State) : State :=
  if (target s.params a).locked ∧ s.status.valid then dropLocked s else writeTarget (target s.params a) v s

/-- `BusWrite(A, v)`: the BUSY drop, then the lock, then the target (R43, R126). -/
def busWrite (a : BitVec 11) (v : Word) (s : State) : State := whenNotBusy (writeUnlocked a v) s

/-- BUS_RD (R42); the data field is ignored (R60). -/
def execBusRd (a : BitVec 11) (_d : Word) (s : State) : Host.Outcome State Fault Refusal := .next (busRead a s)

/-- BUS_WR (R43). -/
def execBusWr (a : BitVec 11) (d : Word) (s : State) : Host.Outcome State Fault Refusal := .next (busWrite a d s)

end Sys2Proof.Machine
end

