-- ==== Sys2Proof/Machine/Dispatch.lean ====
section
/-! DEFINITION. exec: one arm per instruction. -/

namespace Sys2Proof.Machine

def exec (i : Instr) (s : State) : Host.Outcome State Fault Refusal :=
  match i with
  | .nop => Sys2Proof.Machine.execNop s
  | .expand => Sys2Proof.Machine.execExpand s
  | .encrypt => Sys2Proof.Machine.execEncrypt s
  | .decrypt => Sys2Proof.Machine.execDecrypt s
  | .release => Sys2Proof.Machine.execRelease s
  | .gfmul => Sys2Proof.Machine.execGfmul s
  | .subwF => Sys2Proof.Machine.execSubwF s
  | .subwI => Sys2Proof.Machine.execSubwI s
  | .illegal w => Sys2Proof.Machine.execIllegal w s
  | .busRd a d => Sys2Proof.Machine.execBusRd a d s
  | .busWr a d => Sys2Proof.Machine.execBusWr a d s

end Sys2Proof.Machine
end

