-- ==== Sys2Proof/Machine/Step.lean ====
section
/-! DEFINITION. One step of AES-CORE: the move of one agent (00_scope.md R8). -/

namespace Sys2Proof.Machine

/-- One step: a completion step (R114), a reset step (R138), one host transaction, decoded and run (R60, R67), or, when nothing
is pending, no change. -/
def step (s : State) : Host.Outcome State Fault Refusal :=
  match nextMove s with
  | .completion op => .next (complete op s)
  | .host f rest => exec (decode (.bus f)) (takeInput rest s)
  | .reset rest => .next (resetStep (takeInput rest s))
  | .none => .next s

/-- `s` with the instruction of a table word as the host's next transaction, taken before any completion step; `s` itself where
the bits are rejected. A CMD word is the BUS write of it to CMD (R69). -/
def State.withFetchWord (s : State) (nbits w : Nat) : State :=
  match codeOfTableWord nbits w with
  | .ok c => pushTransaction (frameOfCode c) s
  | .error _ => s

end Sys2Proof.Machine
end

