-- ==== Sys2Proof/Safety.lean ====
section
/-! DEFINITION. What a sound state of AES-CORE is: the parameter ranges of 00_scope.md R6, the legality condition of
41_key_schedule.md R91, and the invariant (10_state.md R38, R39). -/

namespace Sys2Proof.Machine

/-- The legal ranges of the parameters (R6). -/
structure Params.Legal (p : Params) : Prop where
  nk : 1 ≤ p.nkMax ∧ p.nkMax ≤ 15
  nb : 1 ≤ p.nbMax ∧ p.nbMax ≤ 15
  words : 1 ≤ p.schedWords ∧ p.schedWords ≤ 1024

/-- The legality condition of CFG at EXPAND (R91, R66). -/
structure Cfg.Legal (p : Params) (c : Cfg) : Prop where
  nk : 1 ≤ c.NK ∧ c.NK ≤ p.nkMax
  nb : 1 ≤ c.NB ∧ c.NB ≤ p.nbMax
  nr : 1 ≤ c.NR
  nk_le : c.NK ≤ c.words
  fits : c.words ≤ p.schedWords

/-- A command that needs a Cipher State to be accepted (R113). -/
def needsSchedule (op : Opcode) : Bool :=
  match op with
  | .encrypt | .decrypt | .release => true
  | .nop | .expand | .gfmul | .subwF | .subwI => false

/-- The invariant of the machine. -/
structure State.Inv (s : State) : Prop where
  /-- the parameters are in range (R6) -/
  params : s.params.Legal
  /-- KEY, BLOCK and SCHED have the parameters' sizes (R15) -/
  keyLen : s.key.length = s.params.nkMax
  blockLen : s.block.length = s.params.nbMax
  schedLen : s.sched.length = s.params.schedWords
  /-- the byte memory keeps its canonical form -/
  tables : Memory.wf s.unlisted s.tables = true
  /-- BUSY = 1 exactly when phase = Busy(op) (R38 item 4) -/
  busy : s.status.busy = true ↔ s.phase ≠ .idle
  /-- ERR is at most 5 (R125) -/
  err : s.status.err.toNat ≤ 5
  /-- while VALID = 1 CFG is legal (R38 item 1) -/
  legal : s.status.valid = true → s.cfg.Legal s.params
  /-- while VALID = 1 SCHED holds the expansion of its own first NK words under CFG and FT (R38 item 1, R39) -/
  schedule : s.status.valid = true →
    s.sched.take s.cfg.words = expand (s.sched.take s.cfg.NK) s.cfg (forwardTable s)
  /-- EXPAND in flight was accepted: no Cipher State yet, CFG legal (R91) -/
  expandOk : s.phase = .busy .expand → s.status.valid = false ∧ s.cfg.Legal s.params
  /-- ENCRYPT, DECRYPT or RELEASE in flight was accepted: there is a Cipher State (R113) -/
  engineOk : ∀ op, s.phase = .busy op → needsSchedule op = true → s.status.valid = true

end Sys2Proof.Machine
end

