-- ==== Sys2Proof/Certificates/Slice0/Obligations.lean ====
section
/-! DEFINITION. The statements for the provers, from the spec's numbered rules; first the words they share. -/

namespace Sys2Proof.Statements

open Sys2Proof.Machine

/-- `t` is `s` after the acceptance of `op` (R113: phase, BUSY and DONE), whatever LATENCY was drawn: `wait` is any number (R84,
R149), and the count of draws is the model's own (logs 3, 8). -/
def AcceptedAs (op : Opcode) (s t : State) : Prop :=
  ∃ n, t = { s with phase := .busy op, status := { s.status with busy := true, done := false }, wait := n, draws := s.draws + 1 }

/-- Once its LATENCY has passed, whatever is pending, the very next step leads from `t` to `u`. -/
def CompletesTo (t u : State) : Prop :=
  ∀ ins, step { t with wait := 0, inputs := ins } = .next { u with wait := 0, inputs := ins }

/-- Instruction `i` runs at `s` as command `op`: its write to CMD answers a next state in which it is accepted, and its
completion step makes of that state `effect` (`s` with what the command writes) with ERR = OK, DONE = 1, BUSY = 0, phase = Idle. -/
def Runs (i : Instr) (op : Opcode) (s effect : State) : Prop :=
  ∃ t, exec i s = .next t ∧ AcceptedAs op s t ∧
    CompletesTo t { effect with
      status := { effect.status with err := 0x0#4, done := true, busy := false }, phase := .idle, draws := s.draws + 1 }

/-- `s` after a rejection with `code`: ERR and DONE, nothing else (R124). -/
def rejectedWith (code : BitVec 4) (s : State) : State := { s with status := { s.status with err := code, done := true } }

/-- `s` after a host write dropped because BUSY = 1 (R48). -/
def busyDropped (s : State) : State := { s with status := { s.status with busyErr := true } }

/-- `s` after a host write dropped by the lock (R50). -/
def lockDropped (s : State) : State := { s with status := { s.status with lockErr := true } }

/-- A bit as a number. -/
def bit (b : Bool) : Nat := if b then 1 else 0

/-- CFG as a number, from the bit positions of R18. -/
def cfgNumber (c : Cfg) : Nat :=
  c.nk.toNat + 2 ^ 8 * c.nb.toNat + 2 ^ 16 * c.nr.toNat + 2 ^ 24 * bit c.fsel + 2 ^ 25 * bit c.isel

/-- STATUS as a number, from the bit positions of R22. -/
def statusNumber (st : Status) : Nat :=
  bit st.busy + 2 * bit st.valid + 4 * bit st.done + 8 * bit st.busyErr + 16 * bit st.lockErr + 2 ^ 8 * st.err.toNat

/-- PARAMS as a number, from the bit positions of R34. -/
def paramsNumber (p : Params) : Nat := p.nkMax + 2 ^ 8 * p.nbMax + 2 ^ 16 * p.schedWords

/-- The condition of R91 for BAD_CONFIG, on the numbers NK, NB, NR. -/
def BadConfig (s : State) : Prop :=
  s.cfg.nk.toNat < 1 ∨ s.params.nkMax < s.cfg.nk.toNat ∨ s.cfg.nb.toNat < 1 ∨ s.params.nbMax < s.cfg.nb.toNat
    ∨ s.cfg.nr.toNat < 1 ∨ s.cfg.nb.toNat * (s.cfg.nr.toNat + 1) < s.cfg.nk.toNat

/-- Offset `off` names a word of BLOCK or SCHED, or RESULT (R41): the reads that R49 leaves free. -/
def VolatileOffset (s : State) (off : Nat) : Prop :=
  off = 0x01C ∨ (0x080 ≤ off ∧ off < 0x080 + 4 * s.params.nbMax) ∨ (0x1000 ≤ off ∧ off < 0x1000 + 4 * s.params.schedWords)

/-- Offset `off` names CFG, an entry of FTAB or one of ITAB (R41): the targets of the lock (R50). -/
def LockedOffset (off : Nat) : Prop := off = 0x008 ∨ (0x400 ≤ off ∧ off < 0xC00)

/-- What a host read of the word at byte offset `off` returns when it is not free (R42), from the table of R41. -/
def windowValue (s : State) (off : Nat) : Word :=
  if off = 0x000 then 0x41455331#32
  else if off = 0x004 then BitVec.ofNat 32 (paramsNumber s.params)
  else if off = 0x008 then BitVec.ofNat 32 (cfgNumber s.cfg)
  else if off = 0x00C then 0#32
  else if off = 0x010 then BitVec.ofNat 32 (statusNumber s.status)
  else if off = 0x014 then BitVec.ofNat 32 (bit s.ie)
  else if off = 0x018 then s.operand
  else if off = 0x01C then s.result
  else if 0x040 ≤ off ∧ off < 0x040 + 4 * s.params.nkMax then s.key.getD ((off - 0x040) / 4) 0#32
  else if 0x080 ≤ off ∧ off < 0x080 + 4 * s.params.nbMax then s.block.getD ((off - 0x080) / 4) 0#32
  else if 0x400 ≤ off ∧ off < 0xC00 then (Memory.read s.unlisted s.tables off).setWidth 32
  else if 0x1000 ≤ off ∧ off < 0x1000 + 4 * s.params.schedWords then
    if s.status.valid = true ∧ (off - 0x1000) / 4 < s.cfg.nb.toNat * (s.cfg.nr.toNat + 1)
    then s.sched.getD ((off - 0x1000) / 4) 0#32 else 0#32
  else 0#32

/-- The state after a host write of `d` at byte offset `off` that is not dropped and is not a command (R43), from the table of
R41. -/
def windowWrite (s : State) (off : Nat) (d : Word) : State :=
  if off = 0x008 then
    { s with cfg := { nk := d.extractLsb' 0 4, nb := d.extractLsb' 8 4, nr := d.extractLsb' 16 5, fsel := d.getLsbD 24,
                      isel := d.getLsbD 25 } }
  else if off = 0x010 then
    { s with status := { s.status with
        done := if d.getLsbD 2 then false else s.status.done
        busyErr := if d.getLsbD 3 then false else s.status.busyErr
        lockErr := if d.getLsbD 4 then false else s.status.lockErr } }
  else if off = 0x014 then { s with ie := d.getLsbD 0 }
  else if off = 0x018 then { s with operand := d }
  else if 0x040 ≤ off ∧ off < 0x040 + 4 * s.params.nkMax then { s with key := s.key.set ((off - 0x040) / 4) d }
  else if 0x080 ≤ off ∧ off < 0x080 + 4 * s.params.nbMax then { s with block := s.block.set ((off - 0x080) / 4) d }
  else if 0x400 ≤ off ∧ off < 0xC00 then
    { s with tables := Memory.write s.unlisted s.tables off (d.extractLsb' 0 8) }
  else s

/-- Two states that differ at most in words of SCHED that the Cipher State does not hold. -/
def SameButStaleSchedule (s s' : State) : Prop :=
  s' = { s with sched := s'.sched } ∧ s'.sched.length = s.sched.length ∧
    (s.status.valid = true → s'.sched.take s.cfg.words = s.sched.take s.cfg.words)

end Sys2Proof.Statements

open Sys2Proof Sys2Proof.Machine Sys2Proof.Statements

/-! ## Encoding and dispatch -/

/-- The decoder reads every well-formed instruction back from its encoding (R60 to R64, R67). -/
def Obligations.EncodedInstructionDecodesToItself : Prop :=
  ∀ i : Instr, i.wellFormed = true → decode (encode i) = i

/-- Every code of either format decodes to a well-formed instruction whose encoding it is, so no two codes share a meaning
(R60, R67). -/
def Obligations.DecodedCodeEncodesBack : Prop :=
  ∀ c : Code, (decode c).wellFormed = true ∧ encode (decode c) = c

/-- R62, R67: each CMD word is exactly one of the eight commands, or ILLEGAL; each bus pattern is a read or a write by W, with A at
42..32 and D at 31..0. -/
def Obligations.EveryWordDecodesByTheOpcodeMap : Prop :=
  (∀ v : Word, decode (.cmd v) =
    if v = 0#32 then .nop else if v = 1#32 then .expand else if v = 2#32 then .encrypt else if v = 3#32 then .decrypt
    else if v = 4#32 then .release else if v = 5#32 then .gfmul else if v = 6#32 then .subwF else if v = 7#32 then .subwI
    else .illegal v) ∧
  (∀ f : BitVec 44, ∃ (a : BitVec 11) (d : Word), a.toNat = f.toNat / 2 ^ 32 % 2 ^ 11 ∧ d.toNat = f.toNat % 2 ^ 32 ∧
    decode (.bus f) = if f.toNat / 2 ^ 43 = 0 then .busRd a d else .busWr a d)

/-- Words written out from R60 to R62 and the programs of 95_test_vectors.md decode to the instructions they stand for. -/
def Obligations.WrittenOutWordsDecode : Prop :=
  decodeTableWord 32 0x00000000 = some .nop ∧ decodeTableWord 32 0x00000002 = some .encrypt ∧
  decodeTableWord 32 0x00000007 = some .subwI ∧ decodeTableWord 32 0x00000011 = some (.illegal 0x11#32) ∧
  decodeTableWord 48 0x803000A0404 = some (.busWr 0x003#11 0x000A0404#32) ∧
  decodeTableWord 48 0x42B00000000 = some (.busRd 0x42B#11 0#32) ∧
  decodeTableWord 48 0x100000000000 = none ∧ decodeTableWord 32 0x100000000 = none

/-- A step runs the pending transaction: when a bus transaction is next and no completion step is due, step is exec of the
decoded instruction at the state in which the transaction is off the queue and counted (R8, R55, R60). The queue and the
scheduling are the model's own (logs 2, 3). -/
def Obligations.StepRunsPendingTransaction : Prop :=
  ∀ (s : State) (f : BitVec 44) (rest : List Input), s.inputs = .bus f :: rest → (s.phase = .idle ∨ 0 < s.wait) →
    step s = exec (decode (.bus f)) { s with inputs := rest, wait := s.wait - 1 }

/-- The step after withFetchWord runs exactly the instruction that the decoder reads from the table word, at the state itself but
for the count of transactions until a pending completion (logs 3, 9). -/
def Obligations.FetchWordRunsDecodedInstruction : Prop :=
  ∀ (s : State) (nbits w : Nat) (i : Instr), decodeTableWord nbits w = some i →
    step (s.withFetchWord nbits w) = exec i { s with wait := s.wait - 1 }

/-- R69: a command is one BUS write of its word to CMD (word address 3), whatever the word and the state. -/
def Obligations.CommandIsOneWriteToCmd : Prop :=
  encode .nop = .cmd 0x00000000#32 ∧ encode .expand = .cmd 0x00000001#32 ∧ encode .encrypt = .cmd 0x00000002#32 ∧
  encode .decrypt = .cmd 0x00000003#32 ∧ encode .release = .cmd 0x00000004#32 ∧ encode .gfmul = .cmd 0x00000005#32 ∧
  encode .subwF = .cmd 0x00000006#32 ∧ encode .subwI = .cmd 0x00000007#32 ∧
  ∀ (s : State) (v : Word), exec (.busWr 0x003#11 v) s = exec (decode (.cmd v)) s

/-! ## Reset and the whole machine -/

/-- The state right after power-on reads as R37 says: every register of the window at its reset value, Idle, no interrupt, and
SCHED not observable. -/
def Obligations.ResetStateReadsAsSpecified : Prop :=
  windowValue State.reset 0x000 = 0x41455331#32 ∧ windowValue State.reset 0x004 = 0x00780808#32 ∧
  windowValue State.reset 0x008 = 0x000A0404#32 ∧ windowValue State.reset 0x010 = 0#32 ∧
  windowValue State.reset 0x014 = 0#32 ∧ windowValue State.reset 0x018 = 0#32 ∧ windowValue State.reset 0x01C = 0#32 ∧
  (∀ k, k < 8 → windowValue State.reset (0x040 + 4 * k) = 0#32) ∧
  (∀ k, k < 8 → windowValue State.reset (0x080 + 4 * k) = 0#32) ∧
  (∀ k, windowValue State.reset (0x1000 + 4 * k) = 0#32) ∧
  State.reset.phase = .idle ∧ irq State.reset = false

/-- R138, R139: a reset step sets every piece of state to its value of R37, draws the table RAMs anew, and aborts a command in
flight (phase = Idle, DONE = 0). The draws by number of reset, and what a reset keeps, are the model's own (logs 5, 8). -/
def Obligations.ResetStepSetsResetValues : Prop :=
  ∀ (s : State) (rest : List Input), s.inputs = .rst :: rest → (s.phase = .idle ∨ 0 < s.wait) →
    ∃ t, step s = .next t ∧ cfgNumber t.cfg = 0x000A0404 ∧ statusNumber t.status = 0 ∧ t.ie = false ∧ t.operand = 0#32 ∧
      t.result = 0#32 ∧ t.key = List.replicate s.params.nkMax 0#32 ∧ t.block = List.replicate s.params.nbMax 0#32 ∧
      t.phase = .idle ∧ irq t = false ∧ (∀ k, schedView t k = 0#32) ∧
      (∀ off, Memory.read t.unlisted t.tables off = Config.tableRamInit (s.resets + 1) off) ∧
      t.resets = s.resets + 1 ∧ t.params = s.params ∧ t.inputs = rest

/-- The invariant holds after every reset of every legal instance (R37, R38). -/
def Obligations.ResetStatesSatisfyInvariant : Prop :=
  State.reset.Inv ∧ ∀ p : Params, p.Legal → ∀ r, (State.resetWith p r).Inv

/-- Every step keeps the invariant: legal CFG and a consistent Key Schedule while VALID = 1, BUSY exactly when a command is in
flight, ERR at most 5, arrays of the parameters' sizes, canonical memory (R38, R39, R125). -/
def Obligations.StepKeepsInvariant : Prop :=
  ∀ s t : State, s.Inv → step s = .next t → t.Inv

/-- R123: no outcome of an instruction or a step is a fault, and none is refused. -/
def Obligations.EveryStepHasANextState : Prop :=
  (∀ (i : Instr) (s : State), ∃ t, exec i s = .next t) ∧ ∀ s : State, ∃ t, step s = .next t

/-! ## Dropped writes, acceptance and rejection -/

/-- R48: while BUSY = 1 every host write, a command's among them, is dropped and sets BUSYERR, and nothing else changes. -/
def Obligations.BusyDropsEveryHostWrite : Prop :=
  ∀ (s : State) (i : Instr), s.status.busy = true → (∀ a d, i ≠ .busRd a d) → exec i s = .next (busyDropped s)

/-- R50: while VALID = 1 and BUSY = 0 a host write to CFG, FTAB[x] or ITAB[x] is dropped and sets LOCKERR. -/
def Obligations.LockDropsConfigAndTableWrites : Prop :=
  ∀ (s : State) (a : BitVec 11) (d : Word), s.status.busy = false → s.status.valid = true → LockedOffset (4 * a.toNat) →
    exec (.busWr a d) s = .next (lockDropped s)

/-- R63, R64: an illegal CMD word is rejected with ILLEGAL_CMD (0x1), as an instruction and as a write to CMD. -/
def Obligations.IllegalCommandIsRejected : Prop :=
  ∀ (s : State) (w : Word), s.status.busy = false →
    exec (.illegal w) s = .next (rejectedWith 0x1#4 s) ∧
    ((w.extractLsb' 4 28 ≠ 0#28 ∨ 8 ≤ (w.extractLsb' 0 4).toNat) →
      exec (.busWr 0x003#11 w) s = .next (rejectedWith 0x1#4 s))

/-- Any command written while BUSY = 0 is accepted (phase, BUSY, DONE) or rejected with a code from 1 to 5 (ERR, DONE), and
nothing else of the spec's state changes (R113, R124, R125). -/
def Obligations.CommandIsAcceptedOrRejected : Prop :=
  ∀ (s : State) (v : Word), s.status.busy = false →
    ∃ t, exec (decode (.cmd v)) s = .next t ∧
      ((∃ op, decode (.cmd v) = instrOfOp op ∧ AcceptedAs op s t) ∨
       (∃ c : BitVec 4, 1 ≤ c.toNat ∧ c.toNat ≤ 5 ∧ t = rejectedWith c s))

/-! ## The commands -/

/-- R115: NOP runs whenever BUSY = 0 and changes nothing but the status; with IE = 1 its completion raises the interrupt. -/
def Obligations.NopRuns : Prop :=
  encode .nop = .cmd 0x00000000#32 ∧
  ∀ s : State,
    (s.status.busy = true → exec .nop s = .next (busyDropped s)) ∧
    (s.status.busy = false → Runs .nop .nop s s ∧
      ∃ t u, exec .nop s = .next t ∧ irq t = false ∧ CompletesTo t u ∧ irq u = s.ie)

/-- R80: GFMUL puts the zero-extended product of OPERAND[7:0] and OPERAND[15:8] in RESULT, with or without a Cipher State. -/
def Obligations.GfmulRuns : Prop :=
  encode .gfmul = .cmd 0x00000005#32 ∧
  ∀ s : State, s.status.busy = false →
    Runs .gfmul .gfmul s
      { s with result := (multiply (s.operand.extractLsb' 0 8) (s.operand.extractLsb' 8 8)).setWidth 32 }

/-- R81: SUBW_F puts OPERAND, substituted lane by lane through the table FT that CFG.FSEL selects, in RESULT. -/
def Obligations.SubwForwardRuns : Prop :=
  encode .subwF = .cmd 0x00000006#32 ∧
  ∀ s : State, s.status.busy = false →
    Runs .subwF .subwF s
      { s with
        result := substituteWord
          (fun x => if s.cfg.fsel then Memory.read s.unlisted s.tables (0x400 + 4 * x.toNat) else sbox x) s.operand }

/-- R82: SUBW_I puts OPERAND, substituted lane by lane through the table IT that CFG.ISEL selects, in RESULT. -/
def Obligations.SubwInverseRuns : Prop :=
  encode .subwI = .cmd 0x00000007#32 ∧
  ∀ s : State, s.status.busy = false →
    Runs .subwI .subwI s
      { s with
        result := substituteWord
          (fun x => if s.cfg.isel then Memory.read s.unlisted s.tables (0x800 + 4 * x.toNat) else invSbox x) s.operand }

/-- R90, R91: EXPAND is rejected by the first check that fails, in the order SCHEDULE_PRESENT, BAD_CONFIG, NO_SPACE; otherwise it
runs, SCHED[0..NB*(NR+1)-1] becomes the expansion of KEY under CFG and FT, and VALID is set. -/
def Obligations.ExpandRunsOrIsRejected : Prop :=
  encode .expand = .cmd 0x00000001#32 ∧
  ∀ s : State, s.status.busy = false →
    (s.status.valid = true → exec .expand s = .next (rejectedWith 0x4#4 s)) ∧
    (s.status.valid = false → BadConfig s → exec .expand s = .next (rejectedWith 0x2#4 s)) ∧
    (s.status.valid = false → ¬ BadConfig s → s.params.schedWords < s.cfg.nb.toNat * (s.cfg.nr.toNat + 1) →
      exec .expand s = .next (rejectedWith 0x5#4 s)) ∧
    (s.Inv → s.status.valid = false → ¬ BadConfig s → s.cfg.nb.toNat * (s.cfg.nr.toNat + 1) ≤ s.params.schedWords →
      Runs .expand .expand s
        { s with
          sched := expand s.key s.cfg (forwardTable s) ++ s.sched.drop (s.cfg.nb.toNat * (s.cfg.nr.toNat + 1))
          status := { s.status with valid := true } })

/-- R92: RELEASE is rejected with NO_SCHEDULE without a Cipher State; with one it runs and clears VALID, and SCHED, KEY, BLOCK,
CFG and the tables keep their contents. -/
def Obligations.ReleaseRunsOrIsRejected : Prop :=
  encode .release = .cmd 0x00000004#32 ∧
  ∀ s : State, s.status.busy = false →
    (s.status.valid = false → exec .release s = .next (rejectedWith 0x3#4 s)) ∧
    (s.status.valid = true → Runs .release .release s { s with status := { s.status with valid := false } })

/-- R105: ENCRYPT is rejected with NO_SCHEDULE without a Cipher State; with one it runs, BLOCK[0..NB-1] becomes Cipher of it, and
the rest of BLOCK is neither read nor written. -/
def Obligations.EncryptRunsOrIsRejected : Prop :=
  encode .encrypt = .cmd 0x00000002#32 ∧
  ∀ s : State, s.status.busy = false →
    (s.status.valid = false → exec .encrypt s = .next (rejectedWith 0x3#4 s)) ∧
    (s.status.valid = true → Runs .encrypt .encrypt s
      { s with block := cipher (forwardTable s) s.sched s.cfg.nb.toNat s.cfg.nr.toNat (s.block.take s.cfg.nb.toNat)
                          ++ s.block.drop s.cfg.nb.toNat })

/-- R106: DECRYPT is rejected with NO_SCHEDULE without a Cipher State; with one it runs, BLOCK[0..NB-1] becomes InvCipher of it,
and the rest of BLOCK is neither read nor written. -/
def Obligations.DecryptRunsOrIsRejected : Prop :=
  encode .decrypt = .cmd 0x00000003#32 ∧
  ∀ s : State, s.status.busy = false →
    (s.status.valid = false → exec .decrypt s = .next (rejectedWith 0x3#4 s)) ∧
    (s.status.valid = true → Runs .decrypt .decrypt s
      { s with block := invCipher (inverseTable s) s.sched s.cfg.nb.toNat s.cfg.nr.toNat (s.block.take s.cfg.nb.toNat)
                          ++ s.block.drop s.cfg.nb.toNat })

/-! ## Bus reads and writes -/

/-- R42: a read while BUSY = 0 returns the value that the register map gives (R41, R46, R52, R53), whatever its data field, and
changes nothing else; the return path `rdata` is the model's own (log 7). -/
def Obligations.ReadReturnsMappedValue : Prop :=
  ∀ (s : State) (a : BitVec 11) (d : Word), s.params.Legal → s.status.busy = false →
    exec (.busRd a d) s = .next { s with rdata := windowValue s (4 * a.toNat) }

/-- R49: while BUSY = 1 a read of BLOCK[k], SCHED[k] or RESULT returns a value under no law, and every other read the current
value. The count of draws is the model's own (logs 4, 8). -/
def Obligations.BusyReadIsFreeOrCurrent : Prop :=
  ∀ (s : State) (a : BitVec 11) (d : Word), s.params.Legal → s.status.busy = true →
    (VolatileOffset s (4 * a.toNat) → ∃ v, exec (.busRd a d) s = .next { s with rdata := v, draws := s.draws + 1 }) ∧
    (¬ VolatileOffset s (4 * a.toNat) → exec (.busRd a d) s = .next { s with rdata := windowValue s (4 * a.toNat) })

/-- R43: a host write is dropped while BUSY = 1, else dropped by the lock, else a write to CMD issues the command its data
names, and any other write stores what the register map says. -/
def Obligations.WriteIsHandledInOrder : Prop :=
  ∀ (s : State) (a : BitVec 11) (d : Word), s.params.Legal →
    (s.status.busy = true → exec (.busWr a d) s = .next (busyDropped s)) ∧
    (s.status.busy = false → s.status.valid = true → LockedOffset (4 * a.toNat) →
      exec (.busWr a d) s = .next (lockDropped s)) ∧
    (s.status.busy = false → ¬ (s.status.valid = true ∧ LockedOffset (4 * a.toNat)) →
      (4 * a.toNat = 0x00C → exec (.busWr a d) s = exec (decode (.cmd d)) s) ∧
      (4 * a.toNat ≠ 0x00C → exec (.busWr a d) s = .next (windowWrite s (4 * a.toNat) d)))

/-- R19: a CFG write that is not dropped stores bits 3..0, 11..8, 20..16, 24 and 25 as written, legal or not, and reads return
them, the reserved bits as 0. -/
def Obligations.ConfigHoldsWrittenFields : Prop :=
  ∀ (s : State) (v : Word), s.status.busy = false → s.status.valid = false →
    ∃ t, exec (.busWr 0x002#11 v) s = .next t ∧ t = { s with cfg := t.cfg } ∧
      t.cfg.nk = v.extractLsb' 0 4 ∧ t.cfg.nb = v.extractLsb' 8 4 ∧ t.cfg.nr = v.extractLsb' 16 5 ∧
      t.cfg.fsel = v.getLsbD 24 ∧ t.cfg.isel = v.getLsbD 25 ∧
      ∀ e, exec (.busRd 0x002#11 e) t = .next { t with rdata := v &&& 0x031F0F0F#32 }

/-- R23: a STATUS write that is not dropped clears exactly the W1C bits written as 1. -/
def Obligations.StatusWriteClearsWrittenBits : Prop :=
  ∀ (s : State) (v : Word), s.status.busy = false →
    ∃ t, exec (.busWr 0x004#11 v) s = .next t ∧ t = { s with status := t.status } ∧
      statusWord t.status = statusWord s.status &&& ~~~(v &&& 0x0000001C#32)

/-- R51: a KEY[k] or BLOCK[k] write that is not dropped stores the whole word, VALID = 1 or not, and the next read returns it;
nothing but KEY and BLOCK changes, the Cipher State (CFG, the tables, SCHED, VALID) least of all. -/
def Obligations.KeyAndBlockWordsReadBack : Prop :=
  ∀ (s : State) (a : BitVec 11) (d e : Word), s.Inv → s.status.busy = false →
    ((0x040 ≤ 4 * a.toNat ∧ 4 * a.toNat < 0x040 + 4 * s.params.nkMax) ∨
      (0x080 ≤ 4 * a.toNat ∧ 4 * a.toNat < 0x080 + 4 * s.params.nbMax)) →
    ∃ t, exec (.busWr a d) s = .next t ∧ exec (.busRd a e) t = .next { t with rdata := d } ∧
      t = { s with key := t.key, block := t.block }

/-- R53: a table write that is not dropped stores v[7:0] in the entry and ignores the rest; every other entry reads as before; a
read returns the entry zero-extended, BUSY = 1 or not. -/
def Obligations.TableEntryReadsBack : Prop :=
  ∀ (s : State) (a : BitVec 11) (d e : Word), 0x400 ≤ 4 * a.toNat → 4 * a.toNat < 0xC00 →
    exec (.busRd a e) s = .next { s with rdata := (Memory.read s.unlisted s.tables (4 * a.toNat)).setWidth 32 } ∧
    (s.status.busy = false → s.status.valid = false →
      ∃ t, exec (.busWr a d) s = .next t ∧ t = { s with tables := t.tables } ∧
        Memory.read t.unlisted t.tables (4 * a.toNat) = d.extractLsb' 0 8 ∧
        ∀ off, off ≠ 4 * a.toNat → Memory.read t.unlisted t.tables off = Memory.read s.unlisted s.tables off)

/-! ## Who changes what -/

/-- While BUSY = 1 a host transaction changes no state but BUSYERR (R38 item 3); the return path and the count of draws are the
model's own (logs 7, 8). -/
def Obligations.BusyHostStepOnlySetsBusyerr : Prop :=
  ∀ (s : State) (f : BitVec 44), s.status.busy = true →
    ∃ t, exec (decode (.bus f)) s = .next t ∧
      t = { s with status := { s.status with busyErr := t.status.busyErr }, rdata := t.rdata, draws := t.draws } ∧
      (s.status.busyErr = true → t.status.busyErr = true)

/-- Only the completion of EXPAND, the completion of RELEASE and a reset change VALID (R22). -/
def Obligations.OnlyExpandReleaseResetChangeValid : Prop :=
  ∀ s t : State, step s = .next t → t.status.valid ≠ s.status.valid →
    (s.phase = .busy .expand ∧ t.phase = .idle ∧ t.status.valid = true) ∨
    (s.phase = .busy .release ∧ t.phase = .idle ∧ t.status.valid = false) ∨
    (∃ rest, s.inputs = .rst :: rest ∧ t.resets = s.resets + 1 ∧ t.status.valid = false)

/-- A Cipher State is immutable: a step from VALID = 1 to VALID = 1 leaves CFG, FTAB, ITAB and SCHED as they are (R20, R32, R38
item 2, R110). -/
def Obligations.CipherStateIsImmutable : Prop :=
  ∀ s t : State, s.Inv → step s = .next t → s.status.valid = true → t.status.valid = true →
    t.cfg = s.cfg ∧ t.tables = s.tables ∧ t.resets = s.resets ∧ t.sched = s.sched

/-- SCHED is written by EXPAND only (R33), RESULT by the primitive commands only (R26), KEY by host writes to KEY only (R27),
and BLOCK by ENCRYPT, DECRYPT and host writes to BLOCK only (R28), but for a reset (R138). -/
def Obligations.DataRegistersHaveTheirOwnWriters : Prop :=
  ∀ s t : State, step s = .next t → t.resets = s.resets →
    (t.sched ≠ s.sched → s.phase = .busy .expand ∧ t.phase = .idle) ∧
    (t.result ≠ s.result → (s.phase = .busy .gfmul ∨ s.phase = .busy .subwF ∨ s.phase = .busy .subwI) ∧ t.phase = .idle) ∧
    (t.key ≠ s.key → ∃ f a d rest, s.inputs = .bus f :: rest ∧ decode (.bus f) = .busWr a d ∧ 0x040 ≤ 4 * a.toNat ∧
      4 * a.toNat < 0x080) ∧
    (t.block ≠ s.block →
      ((s.phase = .busy .encrypt ∨ s.phase = .busy .decrypt) ∧ t.phase = .idle) ∨
      ∃ f a d rest, s.inputs = .bus f :: rest ∧ decode (.bus f) = .busWr a d ∧ 0x080 ≤ 4 * a.toNat ∧ 4 * a.toNat < 0x0C0)

/-- BUSYERR and LOCKERR are sticky: only a STATUS write with their bit set while BUSY = 0, or a reset, clears them (R127,
R128). -/
def Obligations.ErrorBitsStayUntilCleared : Prop :=
  ∀ s t : State, step s = .next t → t.resets = s.resets →
    (s.status.busyErr = true → t.status.busyErr = false →
      s.status.busy = false ∧ ∃ f d rest, s.inputs = .bus f :: rest ∧ decode (.bus f) = .busWr 0x004#11 d ∧ d.getLsbD 3 = true) ∧
    (s.status.lockErr = true → t.status.lockErr = false →
      s.status.busy = false ∧ ∃ f d rest, s.inputs = .bus f :: rest ∧ decode (.bus f) = .busWr 0x004#11 d ∧ d.getLsbD 4 = true)

/-- The interrupt is level-sensitive: it stays pending until DONE is cleared by a W1C write or by the acceptance of a command, or
IE is written 0, or a reset (R129, R130). -/
def Obligations.InterruptStaysPendingUntilCleared : Prop :=
  ∀ s t : State, step s = .next t → irq s = true → irq t = false →
    (∃ f d rest, s.inputs = .bus f :: rest ∧ decode (.bus f) = .busWr 0x004#11 d ∧ d.getLsbD 2 = true) ∨
    (∃ f d rest, s.inputs = .bus f :: rest ∧ decode (.bus f) = .busWr 0x003#11 d ∧ t.status.busy = true) ∨
    (∃ f d rest, s.inputs = .bus f :: rest ∧ decode (.bus f) = .busWr 0x005#11 d ∧ d.getLsbD 0 = false) ∨
    (∃ rest, s.inputs = .rst :: rest ∧ t.resets = s.resets + 1)

/-! ## Runs and isolation -/

/-- A command in flight completes within as many steps as host transactions still come, and one more, unless a reset comes
first; its results are those of the state it started from (R116, R118): the whole machine is the completion of that state,
but for BUSYERR, the return path and the model's own counters. That the completion comes after the transactions LATENCY counts, or
when none is pending, is the model's scheduling (logs 2, 3); the return path and the counters are logs 7 and 8. -/
def Obligations.CommandCompletesAfterItsLatency : Prop :=
  ∀ (s : State) (op : Opcode), s.status.busy = true → s.phase = .busy op → (∀ x ∈ s.inputs.take s.wait, x ≠ .rst) →
    ∃ u, core.run (min s.wait s.inputs.length + 1) s = .next u ∧ u.inputs = s.inputs.drop s.wait ∧
      u = { complete op s with
        status := { (complete op s).status with busyErr := u.status.busyErr }
        inputs := u.inputs, wait := u.wait, rdata := u.rdata, draws := u.draws }

/-- With tables that are mutual inverses, ENCRYPT and then DECRYPT on the machine give the block back, with no other change of
the Cipher State (R107, R121). -/
def Obligations.DecryptAfterEncryptRestoresBlock : Prop :=
  ∀ s : State, s.Inv → s.status.busy = false → s.status.valid = true → (∀ x, inverseTable s (forwardTable s x) = x) →
    ∃ t u v w, exec .encrypt s = .next t ∧ step { t with wait := 0 } = .next u ∧
      exec .decrypt u = .next v ∧ step { v with wait := 0 } = .next w ∧
      w.block = s.block ∧ w.sched = s.sched ∧ w.cfg = s.cfg ∧ w.status.valid = true ∧ w.status.busy = false

/-- The key reaches nothing but EXPAND and reads of KEY: two states that differ only in KEY and in the value last read (`v`)
take steps to states that differ only there, unless the step is a completion of EXPAND (R27, R65). The value last read stays the
same, or as it was on either side, but for a read in the KEY slot and a read that R49 leaves free; and the wait is the same but at
an acceptance, since the time of a command may depend on any data (R84, R149; logs 3, 4). That a reset draws by its number alone is
the model's own (logs 5, 6). -/
def Obligations.KeyReachesOnlyExpandAndKeyReads : Prop :=
  ∀ (s t t' : State) (k : List Word) (v : Word), (s.phase = .busy .expand → 0 < s.wait ∧ s.inputs ≠ []) →
    step s = .next t → step { s with key := k, rdata := v } = .next t' →
    t' = { t with key := t'.key, rdata := t'.rdata, wait := t'.wait } ∧
    (t'.rdata = t.rdata ∨ (t.rdata = s.rdata ∧ t'.rdata = v) ∨
      ∃ f a d rest, s.inputs = .bus f :: rest ∧ decode (.bus f) = .busRd a d ∧
        ((0x040 ≤ 4 * a.toNat ∧ 4 * a.toNat < 0x080) ∨ (s.status.busy = true ∧ VolatileOffset s (4 * a.toNat)))) ∧
    (t'.wait = t.wait ∨ (s.status.busy = false ∧ t.status.busy = true))

/-- Stale schedule words reach nothing: two states that satisfy the invariant and differ only in words of SCHED that the Cipher
State does not hold take steps to states that differ only there; the value read by the host is the same (R33, R52). That no free
value depends on such words, and that a reset draws by its number alone, is the model's own (logs 3, 4, 5, 6). -/
def Obligations.StaleScheduleIsUnobservable : Prop :=
  ∀ s s' t t' : State, s.Inv → SameButStaleSchedule s s' → step s = .next t → step s' = .next t' →
    SameButStaleSchedule t t'

/-! ## The field and the substitution tables -/

/-- R75: the three laws of multiply that the document states, and the field laws, which the rule takes from general knowledge. -/
def Obligations.MultiplyIsFieldMultiplication : Prop :=
  (∀ x, multiply x 0x00#8 = 0x00#8) ∧ (∀ x, multiply x 0x01#8 = x) ∧ (∀ a b, multiply a b = multiply b a) ∧
  (∀ a b c, multiply (multiply a b) c = multiply a (multiply b c)) ∧
  (∀ a b c, multiply a (b ^^^ c) = multiply a b ^^^ multiply a c) ∧
  (∀ x, x ≠ 0x00#8 → ∃ y, multiply x y = 0x01#8 ∧ ∀ z, multiply x z = 0x01#8 → z = y)

/-- R74: xtime is multiply by 2, one shift folded back with 0x1B. -/
def Obligations.XtimeDoubles : Prop :=
  ∀ a : Byte, xtime a = multiply a 0x02#8 ∧ xtime a = (a <<< 1) ^^^ (if a.getLsbD 7 then 0x1B#8 else 0x00#8)

/-- INV_SBOX is the inverse permutation of SBOX (R31, R79); both listings are the spec's from general knowledge (log 11). -/
def Obligations.StandardTablesAreMutualInverses : Prop :=
  (∀ x, invSbox (sbox x) = x) ∧ ∀ x, sbox (invSbox x) = x

/-- The listing of SBOX is the field inverse followed by the affine map that R30 gives from general knowledge (log 11). -/
def Obligations.SboxIsAffineMapOfInverse : Prop :=
  ∀ x b : Byte, (x = 0#8 ∧ b = 0#8) ∨ multiply x b = 0x01#8 →
    sbox x = b ^^^ b.rotateLeft 1 ^^^ b.rotateLeft 2 ^^^ b.rotateLeft 3 ^^^ b.rotateLeft 4 ^^^ 0x63#8

/-- R77: substitute_word acts on each lane alone; and through a table and its inverse it gives the word back (R82). -/
def Obligations.SubstituteWordIsLanewise : Prop :=
  (∀ (f : Byte → Byte) (w : Word) (k : Nat), k < 4 → lane (substituteWord f w) k = f (lane w k)) ∧
  (∀ (f g : Byte → Byte), (∀ x, g (f x) = x) → ∀ w, substituteWord g (substituteWord f w) = w)

/-! ## The key schedule -/

/-- R85: RotWord moves the lanes left by one. -/
def Obligations.RotWordRotatesLanesLeft : Prop :=
  ∀ w : Word, rotWord w = (w <<< 8) ||| (w >>> 24) ∧ ∀ k, k < 4 → lane (rotWord w) k = lane w ((k + 1) % 4)

/-- R86: the round constants. -/
def Obligations.RoundConstantsFollowXtime : Prop :=
  rc 1 = 0x01#8 ∧ (∀ j, 1 ≤ j → rc (j + 1) = xtime (rc j)) ∧ (∀ j, 1 ≤ j → rcon j = (rc j).setWidth 32 <<< 24) ∧
  (List.range 10).map (fun j => rc (j + 1)) =
    [0x01#8, 0x02#8, 0x04#8, 0x08#8, 0x10#8, 0x20#8, 0x40#8, 0x80#8, 0x1B#8, 0x36#8]

/-- R87, R88, R89: the expansion has NB*(NR+1) words; the first NK are the raw key; each later word follows the recurrence. -/
def Obligations.ExpansionFollowsRecurrence : Prop :=
  ∀ (key : List Word) (c : Cfg) (ft : Byte → Byte), 1 ≤ c.NK → c.NK ≤ c.NB * (c.NR + 1) → c.NK ≤ key.length →
    (expand key c ft).length = c.NB * (c.NR + 1) ∧
    (∀ i, i < c.NK → (expand key c ft).getD i 0#32 = key.getD i 0#32) ∧
    (∀ i, c.NK ≤ i → i < c.NB * (c.NR + 1) →
      (expand key c ft).getD i 0#32 = (expand key c ft).getD (i - c.NK) 0#32 ^^^
        (if i % c.NK = 0 then substituteWord ft (rotWord ((expand key c ft).getD (i - 1) 0#32)) ^^^ rcon (i / c.NK)
         else if c.NK > 6 ∧ i % c.NK = 4 then substituteWord ft ((expand key c ft).getD (i - 1) 0#32)
         else (expand key c ft).getD (i - 1) 0#32))

/-! ## The round engines -/

/-- R98: the new cell (r, c) is the old cell (r, (c + r) mod NB). -/
def Obligations.ShiftRowsMovesCells : Prop :=
  ∀ s : List Word, (shiftRows s).length = s.length ∧
    ∀ r c, r < 4 → c < s.length → lane ((shiftRows s).getD c 0#32) r = lane (s.getD ((c + r) % s.length) 0#32) r

/-- R99: the new cell (r, c) is the old cell (r, (c - r) mod NB), and the two rotations undo each other (the rule's own
inference). -/
def Obligations.InvShiftRowsUndoesShiftRows : Prop :=
  ∀ s : List Word, invShiftRows (shiftRows s) = s ∧ shiftRows (invShiftRows s) = s ∧
    ∀ r c : Nat, r < 4 → c < s.length →
      lane ((invShiftRows s).getD c 0#32) r = lane (s.getD (((c : Int) - r) % (s.length : Int)).toNat 0#32) r

/-- R100: MixColumns replaces each column by the forward matrix product, and keeps the number of columns. -/
def Obligations.MixColumnsIsMatrixProduct : Prop :=
  (∀ s : List Word, (mixColumns s).length = s.length) ∧
  (∀ (s : List Word) (c : Nat), c < s.length → (mixColumns s).getD c 0#32 = mixCol (s.getD c 0#32)) ∧
  (∀ a0 a1 a2 a3 : Byte, mixCol (ofLanes a0 a1 a2 a3) =
    ofLanes (multiply 2#8 a0 ^^^ multiply 3#8 a1 ^^^ a2 ^^^ a3) (a0 ^^^ multiply 2#8 a1 ^^^ multiply 3#8 a2 ^^^ a3)
      (a0 ^^^ a1 ^^^ multiply 2#8 a2 ^^^ multiply 3#8 a3) (multiply 3#8 a0 ^^^ a1 ^^^ a2 ^^^ multiply 2#8 a3))

/-- R101: InvMixColumns replaces each column by the inverse matrix product and keeps the number of columns, and the two products
undo each other on every word and so on every block (the rule's own inference). -/
def Obligations.InvMixColumnsUndoesMixColumns : Prop :=
  (∀ s : List Word, (invMixColumns s).length = s.length) ∧
  (∀ (s : List Word) (c : Nat), c < s.length → (invMixColumns s).getD c 0#32 = invMixCol (s.getD c 0#32)) ∧
  (∀ a0 a1 a2 a3 : Byte, invMixCol (ofLanes a0 a1 a2 a3) =
    ofLanes (multiply 14#8 a0 ^^^ multiply 11#8 a1 ^^^ multiply 13#8 a2 ^^^ multiply 9#8 a3)
      (multiply 9#8 a0 ^^^ multiply 14#8 a1 ^^^ multiply 11#8 a2 ^^^ multiply 13#8 a3)
      (multiply 13#8 a0 ^^^ multiply 9#8 a1 ^^^ multiply 14#8 a2 ^^^ multiply 11#8 a3)
      (multiply 11#8 a0 ^^^ multiply 13#8 a1 ^^^ multiply 9#8 a2 ^^^ multiply 14#8 a3)) ∧
  (∀ w, invMixCol (mixCol w) = w) ∧ (∀ w, mixCol (invMixCol w) = w) ∧
  ∀ s : List Word, invMixColumns (mixColumns s) = s ∧ mixColumns (invMixColumns s) = s

/-- R102, R103: AddRoundKey XORs column c with SCHED[r*NB + c]; Cipher is the initial round key, the rounds 1 to NR-1 in order,
and the final round without Mix-Columns. -/
def Obligations.CipherRunsRoundsInOrder : Prop :=
  (∀ (sched s : List Word) (r c : Nat), c < s.length →
    (addRoundKey sched s.length r s).getD c 0#32 = s.getD c 0#32 ^^^ sched.getD (r * s.length + c) 0#32) ∧
  ∀ (ft : Byte → Byte) (sched : List Word) (nb nr : Nat) (s : List Word), 1 ≤ nr →
    cipher ft sched nb nr s =
      addRoundKey sched nb nr (shiftRows (substituteBlock ft
        (((List.range (nr - 1)).map (· + 1)).foldl
          (fun b round => addRoundKey sched nb round (mixColumns (shiftRows (substituteBlock ft b))))
          (addRoundKey sched nb 0 s))))

/-- R104: InvCipher is the last round key, the rounds NR-1 down to 1, and the final step, whose two orders give the same block
(the rule's own inference). -/
def Obligations.InvCipherRunsRoundsInReverse : Prop :=
  (∀ (it : Byte → Byte) (sched : List Word) (nb nr : Nat) (s : List Word), 1 ≤ nr →
    invCipher it sched nb nr s =
      addRoundKey sched nb 0 (invShiftRows (substituteBlock it
        (((List.range (nr - 1)).map (nr - 1 - ·)).foldl
          (fun b round => invMixColumns (addRoundKey sched nb round (substituteBlock it (invShiftRows b))))
          (addRoundKey sched nb nr s))))) ∧
  ∀ (it : Byte → Byte) (s : List Word), invShiftRows (substituteBlock it s) = substituteBlock it (invShiftRows s)

/-- R107, as the spec derives it: InvCipher undoes Cipher for every block, configuration and schedule when IT(FT(x)) = x for all bytes, in particular
with the standard tables, and need not with tables that are not inverses. -/
def Obligations.InvCipherUndoesCipher : Prop :=
  (∀ (ft it : Byte → Byte), (∀ x, it (ft x) = x) → ∀ (sched : List Word) (nb nr : Nat) (s : List Word), 1 ≤ nr →
    s.length = nb → invCipher it sched nb nr (cipher ft sched nb nr s) = s) ∧
  (∀ (sched : List Word) (nb nr : Nat) (s : List Word), 1 ≤ nr → s.length = nb →
    invCipher invSbox sched nb nr (cipher sbox sched nb nr s) = s) ∧
  ∃ (ft it : Byte → Byte) (sched s : List Word), invCipher it sched s.length 1 (cipher ft sched s.length 1 s) ≠ s

/-- R108, as the spec derives it: Cipher undoes InvCipher when FT(IT(x)) = x for all bytes. -/
def Obligations.CipherUndoesInvCipher : Prop :=
  ∀ (ft it : Byte → Byte), (∀ x, ft (it x) = x) → ∀ (sched : List Word) (nb nr : Nat) (s : List Word), 1 ≤ nr →
    s.length = nb → cipher ft sched nb nr (invCipher it sched nb nr s) = s
end

