-- ==== Sys2Proof/Laws/Bits.lean ====
section
/-! SUPPORT. The bits of the concatenations: bus frames and words of four lanes. -/

namespace Sys2Proof.Machine

/-- The bits of a bus frame: W, then A, then D. -/
theorem busFrame_getLsbD (w : Bool) (a : BitVec 11) (d : Word) (i : Nat) :
    (busFrame w a d).getLsbD i =
      if i < 32 then d.getLsbD i else if i < 43 then a.getLsbD (i - 32) else (BitVec.ofBool w).getLsbD (i - 43) := by
  unfold busFrame
  change (BitVec.ofBool w ++ a ++ d : BitVec (1 + 11 + 32)).getLsbD i = _
  rw [BitVec.getLsbD_append, BitVec.getLsbD_append]
  split_ifs with h1 h2 h3 h3
  · rfl
  · rfl
  · omega
  · omega
  · congr 1

/-- W of a bus frame. -/
theorem busFrame_write (w : Bool) (a : BitVec 11) (d : Word) : (busFrame w a d).getLsbD 43 = w := by
  rw [busFrame_getLsbD]; cases w <;> rfl

/-- A of a bus frame. -/
theorem busFrame_addr (w : Bool) (a : BitVec 11) (d : Word) : (busFrame w a d).extractLsb' 32 11 = a := by
  refine BitVec.eq_of_getLsbD_eq fun i hi => ?_
  rw [BitVec.getLsbD_extractLsb', busFrame_getLsbD]
  simp [show ¬ 32 + i < 32 by omega, show 32 + i < 43 by omega, hi]

/-- D of a bus frame. -/
theorem busFrame_data (w : Bool) (a : BitVec 11) (d : Word) : (busFrame w a d).extractLsb' 0 32 = d := by
  refine BitVec.eq_of_getLsbD_eq fun i hi => ?_
  rw [BitVec.getLsbD_extractLsb', busFrame_getLsbD]
  simp [hi]

/-- A pattern is the frame of its own fields. -/
theorem busFrame_fields (f : BitVec 44) :
    busFrame (f.getLsbD 43) (f.extractLsb' 32 11) (f.extractLsb' 0 32) = f := by
  refine BitVec.eq_of_getLsbD_eq fun i hi => ?_
  rw [busFrame_getLsbD]
  split_ifs with h1 h2
  · simp [h1]
  · simp [show i - 32 < 11 by omega, show 32 + (i - 32) = i by omega]
  · obtain rfl : i = 43 := by omega
    cases f.getLsbD 43 <;> rfl

/-- The bits of a word of four lanes. -/
theorem ofLanes_getLsbD (a b c d : Byte) (i : Nat) :
    (ofLanes a b c d).getLsbD i =
      if i < 8 then d.getLsbD i else if i < 16 then c.getLsbD (i - 8) else if i < 24 then b.getLsbD (i - 16)
      else a.getLsbD (i - 24) := by
  unfold ofLanes
  change (a ++ b ++ c ++ d : BitVec (8 + 8 + 8 + 8)).getLsbD i = _
  rw [BitVec.getLsbD_append, BitVec.getLsbD_append, BitVec.getLsbD_append]
  split_ifs <;> first | rfl | omega

/-- The lanes of a word of four lanes. -/
@[simp] theorem lane_ofLanes_zero (a b c d : Byte) : lane (ofLanes a b c d) 0 = a := by
  refine BitVec.eq_of_getLsbD_eq fun i hi => ?_
  rw [lane, BitVec.getLsbD_extractLsb', ofLanes_getLsbD]
  simp [hi, show ¬ 24 + i < 8 by omega, show ¬ 24 + i < 16 by omega]

@[simp] theorem lane_ofLanes_one (a b c d : Byte) : lane (ofLanes a b c d) 1 = b := by
  refine BitVec.eq_of_getLsbD_eq fun i hi => ?_
  rw [lane, BitVec.getLsbD_extractLsb', ofLanes_getLsbD]
  simp [hi, show ¬ 16 + i < 8 by omega, show 16 + i < 24 by omega]

@[simp] theorem lane_ofLanes_two (a b c d : Byte) : lane (ofLanes a b c d) 2 = c := by
  refine BitVec.eq_of_getLsbD_eq fun i hi => ?_
  rw [lane, BitVec.getLsbD_extractLsb', ofLanes_getLsbD]
  simp [hi, show 8 + i < 16 by omega]

@[simp] theorem lane_ofLanes_three (a b c d : Byte) : lane (ofLanes a b c d) 3 = d := by
  refine BitVec.eq_of_getLsbD_eq fun i hi => ?_
  rw [lane, BitVec.getLsbD_extractLsb', ofLanes_getLsbD]
  simp [hi]

/-- A word is the word of its lanes (R10). -/
@[simp] theorem ofLanes_lane (w : Word) : ofLanes (lane w 0) (lane w 1) (lane w 2) (lane w 3) = w := by
  refine BitVec.eq_of_getLsbD_eq fun i hi => ?_
  rw [ofLanes_getLsbD]
  simp only [lane, BitVec.getLsbD_extractLsb']
  split_ifs with h1 h2 h3
  · simp [h1]
  · simp [show i - 8 < 8 by omega, show 8 + (i - 8) = i by omega]
  · simp [show i - 16 < 8 by omega, show 16 + (i - 16) = i by omega]
  · simp [show i - 24 < 8 by omega, show 24 + (i - 24) = i by omega]

/-- Two words with the same lanes are equal. -/
theorem word_ext {v w : Word} (h0 : lane v 0 = lane w 0) (h1 : lane v 1 = lane w 1) (h2 : lane v 2 = lane w 2)
    (h3 : lane v 3 = lane w 3) : v = w := by
  rw [← ofLanes_lane v, ← ofLanes_lane w, h0, h1, h2, h3]

/-- XOR acts on each lane alone. -/
theorem lane_xor (v w : Word) (k : Nat) : lane (v ^^^ w) k = lane v k ^^^ lane w k := by
  refine BitVec.eq_of_getLsbD_eq fun i hi => ?_
  simp [lane, hi]

/-- R63 in numbers: a reserved bit is set exactly from 16 on. -/
theorem reservedBitsSet_eq (v : Word) : reservedBitsSet v = decide (16 ≤ v.toNat) := by
  have hv := v.isLt
  have e : (v.extractLsb' 4 28).toNat = v.toNat / 16 := by
    simp only [BitVec.extractLsb'_toNat, Nat.shiftRight_eq_div_pow]; omega
  rcases lt_or_ge v.toNat 16 with h | h
  · have : v.extractLsb' 4 28 = 0#28 := BitVec.eq_of_toNat_eq (by rw [e]; simp; omega)
    simp [reservedBitsSet, this]; omega
  · have : v.extractLsb' 4 28 ≠ 0#28 := fun e' => by rw [e'] at e; simp at e; omega
    simp [reservedBitsSet, this, h]

/-- An illegal word is well formed exactly from 8 on (R63, R64). -/
theorem illegal_wellFormed_eq (v : Word) : (Instr.illegal v).wellFormed = decide (8 ≤ v.toNat) := by
  have hv := v.isLt
  rw [Instr.wellFormed, reservedBitsSet_eq, reservedOp, BitVec.getLsbD, Nat.testBit_eq_decide_div_mod_eq, ← Bool.decide_or]
  exact decide_eq_decide.2 (by simp only [show (2 : Nat) ^ 3 = 8 from rfl]; omega)

end Sys2Proof.Machine
end

