-- ==== Sys2Proof/Laws/Engines.lean ====
section
/-! SUPPORT. Lengths: every block operation keeps the number of columns, and the expansion has the words R89 gives it and keeps
the raw key in front (R87). -/

namespace Sys2Proof.Machine

@[simp] theorem addRoundKey_length (sched : List Word) (nb r : Nat) (s : List Word) :
    (addRoundKey sched nb r s).length = s.length := by simp [addRoundKey]

@[simp] theorem shiftRows_length (s : List Word) : (shiftRows s).length = s.length := by simp [shiftRows]

@[simp] theorem invShiftRows_length (s : List Word) : (invShiftRows s).length = s.length := by simp [invShiftRows]

@[simp] theorem substituteBlock_length (t : Byte → Byte) (s : List Word) : (substituteBlock t s).length = s.length := by
  simp [substituteBlock]

@[simp] theorem mixColumns_length (s : List Word) : (mixColumns s).length = s.length := by simp [mixColumns]

@[simp] theorem invMixColumns_length (s : List Word) : (invMixColumns s).length = s.length := by simp [invMixColumns]

@[simp] theorem cipherRounds_length (ft : Byte → Byte) (sched : List Word) (nb n : Nat) (s : List Word) :
    (cipherRounds ft sched nb n s).length = s.length := by
  induction n with
  | zero => rfl
  | succ n ih => simp [cipherRounds, cipherRound, ih]

@[simp] theorem invCipherRounds_length (it : Byte → Byte) (sched : List Word) (nb n : Nat) (s : List Word) :
    (invCipherRounds it sched nb n s).length = s.length := by
  induction n generalizing s with
  | zero => rfl
  | succ n ih => simp [invCipherRounds, invCipherRound, ih]

@[simp] theorem cipher_length (ft : Byte → Byte) (sched : List Word) (nb nr : Nat) (s : List Word) :
    (cipher ft sched nb nr s).length = s.length := by simp [cipher]

@[simp] theorem invCipher_length (it : Byte → Byte) (sched : List Word) (nb nr : Nat) (s : List Word) :
    (invCipher it sched nb nr s).length = s.length := by simp [invCipher]

@[simp] theorem expandLoop_length (ft : Byte → Byte) (nk n : Nat) (ws : List Word) :
    (expandLoop ft nk n ws).length = ws.length + n := by
  induction n generalizing ws with
  | zero => rfl
  | succ n ih => simp [expandLoop, ih]; omega

/-- The loop only appends. -/
theorem expandLoop_take (ft : Byte → Byte) (nk n : Nat) (ws : List Word) :
    (expandLoop ft nk n ws).take ws.length = ws := by
  induction n generalizing ws with
  | zero => simp [expandLoop]
  | succ n ih =>
    have h := congrArg (List.take ws.length) (ih (ws ++ [schedNext ft nk ws]))
    simpa [expandLoop, List.take_take] using h

/-- The expansion reads no key word behind NK (R27). -/
theorem expand_take_key (key : List Word) (c : Cfg) (ft : Byte → Byte) : expand (key.take c.NK) c ft = expand key c ft := by
  simp [expand, List.take_take]

end Sys2Proof.Machine
end

