-- ==== Sys2Proof/Laws/Memory.lean ====
section
/-! SUPPORT. The byte memory: what a read finds after a write, and that a write keeps the canonical form. -/

namespace Sys2Proof.Machine

variable (un : Nat → Byte) (m : Memory) (off a : Nat) (v : Byte)

/-- The byte just listed is found. -/
theorem Memory.lookup_insert_same : Memory.lookup (Memory.insert m off v) off = some v := by
  induction m with
  | nil => simp [Memory.insert, Memory.lookup]
  | cons c rest ih =>
    obtain ⟨b, u⟩ := c
    simp only [Memory.insert]
    split_ifs with h1 h2 <;> simp_all [Memory.lookup]
    omega

/-- Listing a byte leaves every other offset alone. -/
theorem Memory.lookup_insert_other (h : a ≠ off) : Memory.lookup (Memory.insert m off v) a = Memory.lookup m a := by
  induction m with
  | nil => simp [Memory.insert, Memory.lookup, h.symm]
  | cons c rest ih =>
    obtain ⟨b, u⟩ := c
    simp only [Memory.insert]
    split_ifs with h1 h2
    · simp [Memory.lookup, h.symm]
    · subst h2; simp [Memory.lookup, h.symm]
    · simp [Memory.lookup, ih]

/-- An offset taken off the list is not found. -/
theorem Memory.lookup_erase_same : Memory.lookup (Memory.erase m off) off = none := by
  induction m with
  | nil => rfl
  | cons c rest ih =>
    obtain ⟨b, u⟩ := c
    by_cases h : b = off
    · simpa [Memory.erase, List.filter_cons, h] using ih
    · simpa [Memory.erase, List.filter_cons, h, Memory.lookup] using ih

/-- Taking an offset off the list leaves every other offset alone. -/
theorem Memory.lookup_erase_other (h : a ≠ off) : Memory.lookup (Memory.erase m off) a = Memory.lookup m a := by
  induction m with
  | nil => rfl
  | cons c rest ih =>
    obtain ⟨b, u⟩ := c
    by_cases hb : b = off
    · subst hb
      simpa [Memory.erase, List.filter_cons, Memory.lookup, h.symm] using ih
    · by_cases hba : b = a
      · subst hba
        simp [Memory.erase, Memory.lookup, h]
      · simpa [Memory.erase, List.filter_cons, hb, Memory.lookup, hba] using ih

/-- A read after a write to the same offset gives the byte written. -/
@[simp] theorem Memory.read_write_same : Memory.read un (Memory.write un m off v) off = v := by
  unfold Memory.write Memory.read
  split_ifs with h
  · simp [Memory.lookup_erase_same, h]
  · simp [Memory.lookup_insert_same]

/-- A write leaves every other offset as it was. -/
theorem Memory.read_write_other (h : a ≠ off) : Memory.read un (Memory.write un m off v) a = Memory.read un m a := by
  unfold Memory.write Memory.read
  split_ifs
  · simp [Memory.lookup_erase_other _ _ _ h]
  · simp [Memory.lookup_insert_other _ _ _ _ h]

/-- Rising order from a bound holds from every smaller bound. -/
theorem Memory.risingFrom_mono {lo hi : Nat} (h : lo ≤ hi) (hm : Memory.risingFrom hi m = true) :
    Memory.risingFrom lo m = true := by
  cases m with
  | nil => rfl
  | cons c rest =>
    simp only [Memory.risingFrom, Bool.and_eq_true, decide_eq_true_eq] at hm ⊢
    exact ⟨by omega, hm.2⟩

/-- Listing a byte keeps the rising order. -/
theorem Memory.risingFrom_insert {lo : Nat} (hlo : lo ≤ off) (hm : Memory.risingFrom lo m = true) :
    Memory.risingFrom lo (Memory.insert m off v) = true := by
  induction m generalizing lo with
  | nil => simp [Memory.insert, Memory.risingFrom, hlo]
  | cons c rest ih =>
    obtain ⟨b, u⟩ := c
    simp only [Memory.risingFrom, Bool.and_eq_true, decide_eq_true_eq] at hm
    simp only [Memory.insert]
    split_ifs with h1 h2
    · simp only [Memory.risingFrom, Bool.and_eq_true, decide_eq_true_eq]
      exact ⟨hlo, by omega, hm.2⟩
    · subst h2
      simp only [Memory.risingFrom, Bool.and_eq_true, decide_eq_true_eq]
      exact ⟨hlo, hm.2⟩
    · simp only [Memory.risingFrom, Bool.and_eq_true, decide_eq_true_eq]
      exact ⟨hm.1, ih (by omega) hm.2⟩

/-- Taking an offset off the list keeps the rising order. -/
theorem Memory.risingFrom_erase {lo : Nat} (hm : Memory.risingFrom lo m = true) :
    Memory.risingFrom lo (Memory.erase m off) = true := by
  induction m generalizing lo with
  | nil => rfl
  | cons c rest ih =>
    obtain ⟨b, u⟩ := c
    simp only [Memory.risingFrom, Bool.and_eq_true, decide_eq_true_eq] at hm
    by_cases h : b = off
    · simpa [Memory.erase, List.filter_cons, h] using ih (Memory.risingFrom_mono rest (by omega) hm.2)
    · simp only [Memory.erase, List.filter_cons, bne_iff_ne, ne_eq, h, not_false_eq_true, if_true, Memory.risingFrom,
        Bool.and_eq_true, decide_eq_true_eq]
      exact ⟨hm.1, ih hm.2⟩

/-- Every cell of the list after listing a byte is that byte's or an old one. -/
theorem Memory.mem_insert {c : Host.Cell} (h : c ∈ Memory.insert m off v) : c = (off, v) ∨ c ∈ m := by
  induction m with
  | nil => simpa [Memory.insert] using h
  | cons d rest ih =>
    obtain ⟨b, u⟩ := d
    simp only [Memory.insert] at h
    split_ifs at h
    · simpa using h
    · rcases List.mem_cons.1 h with h | h <;> simp [h]
    · rcases List.mem_cons.1 h with h | h
      · simp [h]
      · rcases ih h with h | h <;> simp [h]

/-- The empty memory is in canonical form: so is the reset state's. -/
@[simp] theorem Memory.wf_nil : Memory.wf un [] = true := rfl

/-- A write to an entry of a table RAM keeps the canonical form. -/
theorem Memory.wf_write (hoff : Memory.mapped off = true) (hm : Memory.wf un m = true) :
    Memory.wf un (Memory.write un m off v) = true := by
  simp only [Memory.wf, Bool.and_eq_true, List.all_eq_true, bne_iff_ne, ne_eq] at hm ⊢
  unfold Memory.write
  split_ifs with hv
  · refine ⟨Memory.risingFrom_erase _ _ hm.1, fun c hc => hm.2 c ?_⟩
    exact List.mem_of_mem_filter hc
  · refine ⟨Memory.risingFrom_insert _ _ _ (Nat.zero_le _) hm.1, fun c hc => ?_⟩
    rcases Memory.mem_insert _ _ _ hc with rfl | hc
    · exact ⟨hoff, hv⟩
    · exact hm.2 c hc

/-- The offsets of FTAB and ITAB are offsets of the table RAMs. -/
theorem tableOffset_mapped (base : Nat) (hb : base = ftabBase ∨ base = itabBase) (x : Byte) :
    Memory.mapped (tableOffset base x) = true := by
  have := x.isLt
  unfold Memory.mapped tableOffset
  rcases hb with rfl | rfl <;> simp only [Bool.and_eq_true, decide_eq_true_eq] <;>
    simp only [ftabBase, itabBase] <;> omega

/-- A store into a table RAM keeps the canonical form of the state's memory. -/
theorem writeTable_wf (s : State) (base : Nat) (hb : base = ftabBase ∨ base = itabBase) (x v : Byte)
    (h : Memory.wf s.unlisted s.tables = true) :
    Memory.wf (writeTable base x v s).unlisted (writeTable base x v s).tables = true :=
  Memory.wf_write _ _ _ _ (tableOffset_mapped base hb x) h

/-- The reset state's memory is in canonical form. -/
theorem resetWith_tables_wf (p : Params) (r : Nat) :
    Memory.wf (State.resetWith p r).unlisted (State.resetWith p r).tables = true := rfl

/-- An entry of a table RAM after a store into the same RAM. -/
theorem readTable_writeTable (s : State) (base : Nat) (x y v : Byte) :
    readTable (writeTable base x v s) base y = if y = x then v else readTable s base y := by
  by_cases h : y = x
  · subst h; simp [readTable, writeTable, State.unlisted]
  · have : tableOffset base y ≠ tableOffset base x := fun e =>
      h (BitVec.eq_of_toNat_eq (by simp only [tableOffset] at e; omega))
    simp only [h, if_false]
    exact Memory.read_write_other _ _ _ _ _ this

end Sys2Proof.Machine
end

