-- ==== Sys2Proof/Laws/State.lean ====
section
/-! SUPPORT. One lemma per field per update of State, each true by rfl: no later proof unfolds a record update. Likewise for the
updates of STATUS. -/

namespace Sys2Proof.Machine

variable (s : State)

/-! ### writeCfg -/

@[simp] theorem writeCfg_params (v : Word) : (writeCfg v s).params = s.params := rfl
@[simp] theorem writeCfg_cfg (v : Word) : (writeCfg v s).cfg = cfgOfWord v := rfl
@[simp] theorem writeCfg_status (v : Word) : (writeCfg v s).status = s.status := rfl
@[simp] theorem writeCfg_ie (v : Word) : (writeCfg v s).ie = s.ie := rfl
@[simp] theorem writeCfg_operand (v : Word) : (writeCfg v s).operand = s.operand := rfl
@[simp] theorem writeCfg_result (v : Word) : (writeCfg v s).result = s.result := rfl
@[simp] theorem writeCfg_key (v : Word) : (writeCfg v s).key = s.key := rfl
@[simp] theorem writeCfg_block (v : Word) : (writeCfg v s).block = s.block := rfl
@[simp] theorem writeCfg_tables (v : Word) : (writeCfg v s).tables = s.tables := rfl
@[simp] theorem writeCfg_sched (v : Word) : (writeCfg v s).sched = s.sched := rfl
@[simp] theorem writeCfg_phase (v : Word) : (writeCfg v s).phase = s.phase := rfl
@[simp] theorem writeCfg_inputs (v : Word) : (writeCfg v s).inputs = s.inputs := rfl
@[simp] theorem writeCfg_wait (v : Word) : (writeCfg v s).wait = s.wait := rfl
@[simp] theorem writeCfg_rdata (v : Word) : (writeCfg v s).rdata = s.rdata := rfl
@[simp] theorem writeCfg_draws (v : Word) : (writeCfg v s).draws = s.draws := rfl
@[simp] theorem writeCfg_resets (v : Word) : (writeCfg v s).resets = s.resets := rfl

/-! ### writeStatus -/

@[simp] theorem writeStatus_params (v : Word) : (writeStatus v s).params = s.params := rfl
@[simp] theorem writeStatus_cfg (v : Word) : (writeStatus v s).cfg = s.cfg := rfl
@[simp] theorem writeStatus_status (v : Word) : (writeStatus v s).status = statusW1C v s.status := rfl
@[simp] theorem writeStatus_ie (v : Word) : (writeStatus v s).ie = s.ie := rfl
@[simp] theorem writeStatus_operand (v : Word) : (writeStatus v s).operand = s.operand := rfl
@[simp] theorem writeStatus_result (v : Word) : (writeStatus v s).result = s.result := rfl
@[simp] theorem writeStatus_key (v : Word) : (writeStatus v s).key = s.key := rfl
@[simp] theorem writeStatus_block (v : Word) : (writeStatus v s).block = s.block := rfl
@[simp] theorem writeStatus_tables (v : Word) : (writeStatus v s).tables = s.tables := rfl
@[simp] theorem writeStatus_sched (v : Word) : (writeStatus v s).sched = s.sched := rfl
@[simp] theorem writeStatus_phase (v : Word) : (writeStatus v s).phase = s.phase := rfl
@[simp] theorem writeStatus_inputs (v : Word) : (writeStatus v s).inputs = s.inputs := rfl
@[simp] theorem writeStatus_wait (v : Word) : (writeStatus v s).wait = s.wait := rfl
@[simp] theorem writeStatus_rdata (v : Word) : (writeStatus v s).rdata = s.rdata := rfl
@[simp] theorem writeStatus_draws (v : Word) : (writeStatus v s).draws = s.draws := rfl
@[simp] theorem writeStatus_resets (v : Word) : (writeStatus v s).resets = s.resets := rfl

/-! ### writeIrqen -/

@[simp] theorem writeIrqen_params (v : Word) : (writeIrqen v s).params = s.params := rfl
@[simp] theorem writeIrqen_cfg (v : Word) : (writeIrqen v s).cfg = s.cfg := rfl
@[simp] theorem writeIrqen_status (v : Word) : (writeIrqen v s).status = s.status := rfl
@[simp] theorem writeIrqen_ie (v : Word) : (writeIrqen v s).ie = v.getLsbD 0 := rfl
@[simp] theorem writeIrqen_operand (v : Word) : (writeIrqen v s).operand = s.operand := rfl
@[simp] theorem writeIrqen_result (v : Word) : (writeIrqen v s).result = s.result := rfl
@[simp] theorem writeIrqen_key (v : Word) : (writeIrqen v s).key = s.key := rfl
@[simp] theorem writeIrqen_block (v : Word) : (writeIrqen v s).block = s.block := rfl
@[simp] theorem writeIrqen_tables (v : Word) : (writeIrqen v s).tables = s.tables := rfl
@[simp] theorem writeIrqen_sched (v : Word) : (writeIrqen v s).sched = s.sched := rfl
@[simp] theorem writeIrqen_phase (v : Word) : (writeIrqen v s).phase = s.phase := rfl
@[simp] theorem writeIrqen_inputs (v : Word) : (writeIrqen v s).inputs = s.inputs := rfl
@[simp] theorem writeIrqen_wait (v : Word) : (writeIrqen v s).wait = s.wait := rfl
@[simp] theorem writeIrqen_rdata (v : Word) : (writeIrqen v s).rdata = s.rdata := rfl
@[simp] theorem writeIrqen_draws (v : Word) : (writeIrqen v s).draws = s.draws := rfl
@[simp] theorem writeIrqen_resets (v : Word) : (writeIrqen v s).resets = s.resets := rfl

/-! ### writeOperand -/

@[simp] theorem writeOperand_params (v : Word) : (writeOperand v s).params = s.params := rfl
@[simp] theorem writeOperand_cfg (v : Word) : (writeOperand v s).cfg = s.cfg := rfl
@[simp] theorem writeOperand_status (v : Word) : (writeOperand v s).status = s.status := rfl
@[simp] theorem writeOperand_ie (v : Word) : (writeOperand v s).ie = s.ie := rfl
@[simp] theorem writeOperand_operand (v : Word) : (writeOperand v s).operand = v := rfl
@[simp] theorem writeOperand_result (v : Word) : (writeOperand v s).result = s.result := rfl
@[simp] theorem writeOperand_key (v : Word) : (writeOperand v s).key = s.key := rfl
@[simp] theorem writeOperand_block (v : Word) : (writeOperand v s).block = s.block := rfl
@[simp] theorem writeOperand_tables (v : Word) : (writeOperand v s).tables = s.tables := rfl
@[simp] theorem writeOperand_sched (v : Word) : (writeOperand v s).sched = s.sched := rfl
@[simp] theorem writeOperand_phase (v : Word) : (writeOperand v s).phase = s.phase := rfl
@[simp] theorem writeOperand_inputs (v : Word) : (writeOperand v s).inputs = s.inputs := rfl
@[simp] theorem writeOperand_wait (v : Word) : (writeOperand v s).wait = s.wait := rfl
@[simp] theorem writeOperand_rdata (v : Word) : (writeOperand v s).rdata = s.rdata := rfl
@[simp] theorem writeOperand_draws (v : Word) : (writeOperand v s).draws = s.draws := rfl
@[simp] theorem writeOperand_resets (v : Word) : (writeOperand v s).resets = s.resets := rfl

/-! ### writeKey -/

@[simp] theorem writeKey_params (k : Nat) (v : Word) : (writeKey k v s).params = s.params := rfl
@[simp] theorem writeKey_cfg (k : Nat) (v : Word) : (writeKey k v s).cfg = s.cfg := rfl
@[simp] theorem writeKey_status (k : Nat) (v : Word) : (writeKey k v s).status = s.status := rfl
@[simp] theorem writeKey_ie (k : Nat) (v : Word) : (writeKey k v s).ie = s.ie := rfl
@[simp] theorem writeKey_operand (k : Nat) (v : Word) : (writeKey k v s).operand = s.operand := rfl
@[simp] theorem writeKey_result (k : Nat) (v : Word) : (writeKey k v s).result = s.result := rfl
@[simp] theorem writeKey_key (k : Nat) (v : Word) : (writeKey k v s).key = s.key.set k v := rfl
@[simp] theorem writeKey_block (k : Nat) (v : Word) : (writeKey k v s).block = s.block := rfl
@[simp] theorem writeKey_tables (k : Nat) (v : Word) : (writeKey k v s).tables = s.tables := rfl
@[simp] theorem writeKey_sched (k : Nat) (v : Word) : (writeKey k v s).sched = s.sched := rfl
@[simp] theorem writeKey_phase (k : Nat) (v : Word) : (writeKey k v s).phase = s.phase := rfl
@[simp] theorem writeKey_inputs (k : Nat) (v : Word) : (writeKey k v s).inputs = s.inputs := rfl
@[simp] theorem writeKey_wait (k : Nat) (v : Word) : (writeKey k v s).wait = s.wait := rfl
@[simp] theorem writeKey_rdata (k : Nat) (v : Word) : (writeKey k v s).rdata = s.rdata := rfl
@[simp] theorem writeKey_draws (k : Nat) (v : Word) : (writeKey k v s).draws = s.draws := rfl
@[simp] theorem writeKey_resets (k : Nat) (v : Word) : (writeKey k v s).resets = s.resets := rfl

/-! ### writeBlock -/

@[simp] theorem writeBlock_params (k : Nat) (v : Word) : (writeBlock k v s).params = s.params := rfl
@[simp] theorem writeBlock_cfg (k : Nat) (v : Word) : (writeBlock k v s).cfg = s.cfg := rfl
@[simp] theorem writeBlock_status (k : Nat) (v : Word) : (writeBlock k v s).status = s.status := rfl
@[simp] theorem writeBlock_ie (k : Nat) (v : Word) : (writeBlock k v s).ie = s.ie := rfl
@[simp] theorem writeBlock_operand (k : Nat) (v : Word) : (writeBlock k v s).operand = s.operand := rfl
@[simp] theorem writeBlock_result (k : Nat) (v : Word) : (writeBlock k v s).result = s.result := rfl
@[simp] theorem writeBlock_key (k : Nat) (v : Word) : (writeBlock k v s).key = s.key := rfl
@[simp] theorem writeBlock_block (k : Nat) (v : Word) : (writeBlock k v s).block = s.block.set k v := rfl
@[simp] theorem writeBlock_tables (k : Nat) (v : Word) : (writeBlock k v s).tables = s.tables := rfl
@[simp] theorem writeBlock_sched (k : Nat) (v : Word) : (writeBlock k v s).sched = s.sched := rfl
@[simp] theorem writeBlock_phase (k : Nat) (v : Word) : (writeBlock k v s).phase = s.phase := rfl
@[simp] theorem writeBlock_inputs (k : Nat) (v : Word) : (writeBlock k v s).inputs = s.inputs := rfl
@[simp] theorem writeBlock_wait (k : Nat) (v : Word) : (writeBlock k v s).wait = s.wait := rfl
@[simp] theorem writeBlock_rdata (k : Nat) (v : Word) : (writeBlock k v s).rdata = s.rdata := rfl
@[simp] theorem writeBlock_draws (k : Nat) (v : Word) : (writeBlock k v s).draws = s.draws := rfl
@[simp] theorem writeBlock_resets (k : Nat) (v : Word) : (writeBlock k v s).resets = s.resets := rfl

/-! ### writeTable -/

@[simp] theorem writeTable_params (base : Nat) (x v : Byte) : (writeTable base x v s).params = s.params := rfl
@[simp] theorem writeTable_cfg (base : Nat) (x v : Byte) : (writeTable base x v s).cfg = s.cfg := rfl
@[simp] theorem writeTable_status (base : Nat) (x v : Byte) : (writeTable base x v s).status = s.status := rfl
@[simp] theorem writeTable_ie (base : Nat) (x v : Byte) : (writeTable base x v s).ie = s.ie := rfl
@[simp] theorem writeTable_operand (base : Nat) (x v : Byte) : (writeTable base x v s).operand = s.operand := rfl
@[simp] theorem writeTable_result (base : Nat) (x v : Byte) : (writeTable base x v s).result = s.result := rfl
@[simp] theorem writeTable_key (base : Nat) (x v : Byte) : (writeTable base x v s).key = s.key := rfl
@[simp] theorem writeTable_block (base : Nat) (x v : Byte) : (writeTable base x v s).block = s.block := rfl
@[simp] theorem writeTable_tables (base : Nat) (x v : Byte) : (writeTable base x v s).tables = Memory.write s.unlisted s.tables (tableOffset base x) v := rfl
@[simp] theorem writeTable_sched (base : Nat) (x v : Byte) : (writeTable base x v s).sched = s.sched := rfl
@[simp] theorem writeTable_phase (base : Nat) (x v : Byte) : (writeTable base x v s).phase = s.phase := rfl
@[simp] theorem writeTable_inputs (base : Nat) (x v : Byte) : (writeTable base x v s).inputs = s.inputs := rfl
@[simp] theorem writeTable_wait (base : Nat) (x v : Byte) : (writeTable base x v s).wait = s.wait := rfl
@[simp] theorem writeTable_rdata (base : Nat) (x v : Byte) : (writeTable base x v s).rdata = s.rdata := rfl
@[simp] theorem writeTable_draws (base : Nat) (x v : Byte) : (writeTable base x v s).draws = s.draws := rfl
@[simp] theorem writeTable_resets (base : Nat) (x v : Byte) : (writeTable base x v s).resets = s.resets := rfl

/-! ### setResult -/

@[simp] theorem setResult_params (v : Word) : (setResult v s).params = s.params := rfl
@[simp] theorem setResult_cfg (v : Word) : (setResult v s).cfg = s.cfg := rfl
@[simp] theorem setResult_status (v : Word) : (setResult v s).status = s.status := rfl
@[simp] theorem setResult_ie (v : Word) : (setResult v s).ie = s.ie := rfl
@[simp] theorem setResult_operand (v : Word) : (setResult v s).operand = s.operand := rfl
@[simp] theorem setResult_result (v : Word) : (setResult v s).result = v := rfl
@[simp] theorem setResult_key (v : Word) : (setResult v s).key = s.key := rfl
@[simp] theorem setResult_block (v : Word) : (setResult v s).block = s.block := rfl
@[simp] theorem setResult_tables (v : Word) : (setResult v s).tables = s.tables := rfl
@[simp] theorem setResult_sched (v : Word) : (setResult v s).sched = s.sched := rfl
@[simp] theorem setResult_phase (v : Word) : (setResult v s).phase = s.phase := rfl
@[simp] theorem setResult_inputs (v : Word) : (setResult v s).inputs = s.inputs := rfl
@[simp] theorem setResult_wait (v : Word) : (setResult v s).wait = s.wait := rfl
@[simp] theorem setResult_rdata (v : Word) : (setResult v s).rdata = s.rdata := rfl
@[simp] theorem setResult_draws (v : Word) : (setResult v s).draws = s.draws := rfl
@[simp] theorem setResult_resets (v : Word) : (setResult v s).resets = s.resets := rfl

/-! ### setSchedPrefix -/

@[simp] theorem setSchedPrefix_params (ws : List Word) : (setSchedPrefix ws s).params = s.params := rfl
@[simp] theorem setSchedPrefix_cfg (ws : List Word) : (setSchedPrefix ws s).cfg = s.cfg := rfl
@[simp] theorem setSchedPrefix_status (ws : List Word) : (setSchedPrefix ws s).status = s.status := rfl
@[simp] theorem setSchedPrefix_ie (ws : List Word) : (setSchedPrefix ws s).ie = s.ie := rfl
@[simp] theorem setSchedPrefix_operand (ws : List Word) : (setSchedPrefix ws s).operand = s.operand := rfl
@[simp] theorem setSchedPrefix_result (ws : List Word) : (setSchedPrefix ws s).result = s.result := rfl
@[simp] theorem setSchedPrefix_key (ws : List Word) : (setSchedPrefix ws s).key = s.key := rfl
@[simp] theorem setSchedPrefix_block (ws : List Word) : (setSchedPrefix ws s).block = s.block := rfl
@[simp] theorem setSchedPrefix_tables (ws : List Word) : (setSchedPrefix ws s).tables = s.tables := rfl
@[simp] theorem setSchedPrefix_sched (ws : List Word) : (setSchedPrefix ws s).sched = ws ++ s.sched.drop ws.length := rfl
@[simp] theorem setSchedPrefix_phase (ws : List Word) : (setSchedPrefix ws s).phase = s.phase := rfl
@[simp] theorem setSchedPrefix_inputs (ws : List Word) : (setSchedPrefix ws s).inputs = s.inputs := rfl
@[simp] theorem setSchedPrefix_wait (ws : List Word) : (setSchedPrefix ws s).wait = s.wait := rfl
@[simp] theorem setSchedPrefix_rdata (ws : List Word) : (setSchedPrefix ws s).rdata = s.rdata := rfl
@[simp] theorem setSchedPrefix_draws (ws : List Word) : (setSchedPrefix ws s).draws = s.draws := rfl
@[simp] theorem setSchedPrefix_resets (ws : List Word) : (setSchedPrefix ws s).resets = s.resets := rfl

/-! ### setBlockPrefix -/

@[simp] theorem setBlockPrefix_params (ws : List Word) : (setBlockPrefix ws s).params = s.params := rfl
@[simp] theorem setBlockPrefix_cfg (ws : List Word) : (setBlockPrefix ws s).cfg = s.cfg := rfl
@[simp] theorem setBlockPrefix_status (ws : List Word) : (setBlockPrefix ws s).status = s.status := rfl
@[simp] theorem setBlockPrefix_ie (ws : List Word) : (setBlockPrefix ws s).ie = s.ie := rfl
@[simp] theorem setBlockPrefix_operand (ws : List Word) : (setBlockPrefix ws s).operand = s.operand := rfl
@[simp] theorem setBlockPrefix_result (ws : List Word) : (setBlockPrefix ws s).result = s.result := rfl
@[simp] theorem setBlockPrefix_key (ws : List Word) : (setBlockPrefix ws s).key = s.key := rfl
@[simp] theorem setBlockPrefix_block (ws : List Word) : (setBlockPrefix ws s).block = ws ++ s.block.drop ws.length := rfl
@[simp] theorem setBlockPrefix_tables (ws : List Word) : (setBlockPrefix ws s).tables = s.tables := rfl
@[simp] theorem setBlockPrefix_sched (ws : List Word) : (setBlockPrefix ws s).sched = s.sched := rfl
@[simp] theorem setBlockPrefix_phase (ws : List Word) : (setBlockPrefix ws s).phase = s.phase := rfl
@[simp] theorem setBlockPrefix_inputs (ws : List Word) : (setBlockPrefix ws s).inputs = s.inputs := rfl
@[simp] theorem setBlockPrefix_wait (ws : List Word) : (setBlockPrefix ws s).wait = s.wait := rfl
@[simp] theorem setBlockPrefix_rdata (ws : List Word) : (setBlockPrefix ws s).rdata = s.rdata := rfl
@[simp] theorem setBlockPrefix_draws (ws : List Word) : (setBlockPrefix ws s).draws = s.draws := rfl
@[simp] theorem setBlockPrefix_resets (ws : List Word) : (setBlockPrefix ws s).resets = s.resets := rfl

/-! ### setValid -/

@[simp] theorem setValid_params (b : Bool) : (setValid b s).params = s.params := rfl
@[simp] theorem setValid_cfg (b : Bool) : (setValid b s).cfg = s.cfg := rfl
@[simp] theorem setValid_status (b : Bool) : (setValid b s).status = { s.status with valid := b } := rfl
@[simp] theorem setValid_ie (b : Bool) : (setValid b s).ie = s.ie := rfl
@[simp] theorem setValid_operand (b : Bool) : (setValid b s).operand = s.operand := rfl
@[simp] theorem setValid_result (b : Bool) : (setValid b s).result = s.result := rfl
@[simp] theorem setValid_key (b : Bool) : (setValid b s).key = s.key := rfl
@[simp] theorem setValid_block (b : Bool) : (setValid b s).block = s.block := rfl
@[simp] theorem setValid_tables (b : Bool) : (setValid b s).tables = s.tables := rfl
@[simp] theorem setValid_sched (b : Bool) : (setValid b s).sched = s.sched := rfl
@[simp] theorem setValid_phase (b : Bool) : (setValid b s).phase = s.phase := rfl
@[simp] theorem setValid_inputs (b : Bool) : (setValid b s).inputs = s.inputs := rfl
@[simp] theorem setValid_wait (b : Bool) : (setValid b s).wait = s.wait := rfl
@[simp] theorem setValid_rdata (b : Bool) : (setValid b s).rdata = s.rdata := rfl
@[simp] theorem setValid_draws (b : Bool) : (setValid b s).draws = s.draws := rfl
@[simp] theorem setValid_resets (b : Bool) : (setValid b s).resets = s.resets := rfl

/-! ### setRdata -/

@[simp] theorem setRdata_params (v : Word) : (setRdata v s).params = s.params := rfl
@[simp] theorem setRdata_cfg (v : Word) : (setRdata v s).cfg = s.cfg := rfl
@[simp] theorem setRdata_status (v : Word) : (setRdata v s).status = s.status := rfl
@[simp] theorem setRdata_ie (v : Word) : (setRdata v s).ie = s.ie := rfl
@[simp] theorem setRdata_operand (v : Word) : (setRdata v s).operand = s.operand := rfl
@[simp] theorem setRdata_result (v : Word) : (setRdata v s).result = s.result := rfl
@[simp] theorem setRdata_key (v : Word) : (setRdata v s).key = s.key := rfl
@[simp] theorem setRdata_block (v : Word) : (setRdata v s).block = s.block := rfl
@[simp] theorem setRdata_tables (v : Word) : (setRdata v s).tables = s.tables := rfl
@[simp] theorem setRdata_sched (v : Word) : (setRdata v s).sched = s.sched := rfl
@[simp] theorem setRdata_phase (v : Word) : (setRdata v s).phase = s.phase := rfl
@[simp] theorem setRdata_inputs (v : Word) : (setRdata v s).inputs = s.inputs := rfl
@[simp] theorem setRdata_wait (v : Word) : (setRdata v s).wait = s.wait := rfl
@[simp] theorem setRdata_rdata (v : Word) : (setRdata v s).rdata = v := rfl
@[simp] theorem setRdata_draws (v : Word) : (setRdata v s).draws = s.draws := rfl
@[simp] theorem setRdata_resets (v : Word) : (setRdata v s).resets = s.resets := rfl

/-! ### reject -/

@[simp] theorem reject_params (c : ErrCode) : (reject c s).params = s.params := rfl
@[simp] theorem reject_cfg (c : ErrCode) : (reject c s).cfg = s.cfg := rfl
@[simp] theorem reject_status (c : ErrCode) : (reject c s).status = statusReject c s.status := rfl
@[simp] theorem reject_ie (c : ErrCode) : (reject c s).ie = s.ie := rfl
@[simp] theorem reject_operand (c : ErrCode) : (reject c s).operand = s.operand := rfl
@[simp] theorem reject_result (c : ErrCode) : (reject c s).result = s.result := rfl
@[simp] theorem reject_key (c : ErrCode) : (reject c s).key = s.key := rfl
@[simp] theorem reject_block (c : ErrCode) : (reject c s).block = s.block := rfl
@[simp] theorem reject_tables (c : ErrCode) : (reject c s).tables = s.tables := rfl
@[simp] theorem reject_sched (c : ErrCode) : (reject c s).sched = s.sched := rfl
@[simp] theorem reject_phase (c : ErrCode) : (reject c s).phase = s.phase := rfl
@[simp] theorem reject_inputs (c : ErrCode) : (reject c s).inputs = s.inputs := rfl
@[simp] theorem reject_wait (c : ErrCode) : (reject c s).wait = s.wait := rfl
@[simp] theorem reject_rdata (c : ErrCode) : (reject c s).rdata = s.rdata := rfl
@[simp] theorem reject_draws (c : ErrCode) : (reject c s).draws = s.draws := rfl
@[simp] theorem reject_resets (c : ErrCode) : (reject c s).resets = s.resets := rfl

/-! ### dropBusy -/

@[simp] theorem dropBusy_params : (dropBusy s).params = s.params := rfl
@[simp] theorem dropBusy_cfg : (dropBusy s).cfg = s.cfg := rfl
@[simp] theorem dropBusy_status : (dropBusy s).status = { s.status with busyErr := true } := rfl
@[simp] theorem dropBusy_ie : (dropBusy s).ie = s.ie := rfl
@[simp] theorem dropBusy_operand : (dropBusy s).operand = s.operand := rfl
@[simp] theorem dropBusy_result : (dropBusy s).result = s.result := rfl
@[simp] theorem dropBusy_key : (dropBusy s).key = s.key := rfl
@[simp] theorem dropBusy_block : (dropBusy s).block = s.block := rfl
@[simp] theorem dropBusy_tables : (dropBusy s).tables = s.tables := rfl
@[simp] theorem dropBusy_sched : (dropBusy s).sched = s.sched := rfl
@[simp] theorem dropBusy_phase : (dropBusy s).phase = s.phase := rfl
@[simp] theorem dropBusy_inputs : (dropBusy s).inputs = s.inputs := rfl
@[simp] theorem dropBusy_wait : (dropBusy s).wait = s.wait := rfl
@[simp] theorem dropBusy_rdata : (dropBusy s).rdata = s.rdata := rfl
@[simp] theorem dropBusy_draws : (dropBusy s).draws = s.draws := rfl
@[simp] theorem dropBusy_resets : (dropBusy s).resets = s.resets := rfl

/-! ### dropLocked -/

@[simp] theorem dropLocked_params : (dropLocked s).params = s.params := rfl
@[simp] theorem dropLocked_cfg : (dropLocked s).cfg = s.cfg := rfl
@[simp] theorem dropLocked_status : (dropLocked s).status = { s.status with lockErr := true } := rfl
@[simp] theorem dropLocked_ie : (dropLocked s).ie = s.ie := rfl
@[simp] theorem dropLocked_operand : (dropLocked s).operand = s.operand := rfl
@[simp] theorem dropLocked_result : (dropLocked s).result = s.result := rfl
@[simp] theorem dropLocked_key : (dropLocked s).key = s.key := rfl
@[simp] theorem dropLocked_block : (dropLocked s).block = s.block := rfl
@[simp] theorem dropLocked_tables : (dropLocked s).tables = s.tables := rfl
@[simp] theorem dropLocked_sched : (dropLocked s).sched = s.sched := rfl
@[simp] theorem dropLocked_phase : (dropLocked s).phase = s.phase := rfl
@[simp] theorem dropLocked_inputs : (dropLocked s).inputs = s.inputs := rfl
@[simp] theorem dropLocked_wait : (dropLocked s).wait = s.wait := rfl
@[simp] theorem dropLocked_rdata : (dropLocked s).rdata = s.rdata := rfl
@[simp] theorem dropLocked_draws : (dropLocked s).draws = s.draws := rfl
@[simp] theorem dropLocked_resets : (dropLocked s).resets = s.resets := rfl

/-! ### accept -/

@[simp] theorem accept_params (op : Opcode) : (accept op s).params = s.params := rfl
@[simp] theorem accept_cfg (op : Opcode) : (accept op s).cfg = s.cfg := rfl
@[simp] theorem accept_status (op : Opcode) : (accept op s).status = statusAccept s.status := rfl
@[simp] theorem accept_ie (op : Opcode) : (accept op s).ie = s.ie := rfl
@[simp] theorem accept_operand (op : Opcode) : (accept op s).operand = s.operand := rfl
@[simp] theorem accept_result (op : Opcode) : (accept op s).result = s.result := rfl
@[simp] theorem accept_key (op : Opcode) : (accept op s).key = s.key := rfl
@[simp] theorem accept_block (op : Opcode) : (accept op s).block = s.block := rfl
@[simp] theorem accept_tables (op : Opcode) : (accept op s).tables = s.tables := rfl
@[simp] theorem accept_sched (op : Opcode) : (accept op s).sched = s.sched := rfl
@[simp] theorem accept_phase (op : Opcode) : (accept op s).phase = .busy op := rfl
@[simp] theorem accept_inputs (op : Opcode) : (accept op s).inputs = s.inputs := rfl
@[simp] theorem accept_wait (op : Opcode) : (accept op s).wait = Config.latency op s.observed := rfl
@[simp] theorem accept_rdata (op : Opcode) : (accept op s).rdata = s.rdata := rfl
@[simp] theorem accept_draws (op : Opcode) : (accept op s).draws = s.draws + 1 := rfl
@[simp] theorem accept_resets (op : Opcode) : (accept op s).resets = s.resets := rfl

/-! ### takeInput -/

@[simp] theorem takeInput_params (rest : List Input) : (takeInput rest s).params = s.params := rfl
@[simp] theorem takeInput_cfg (rest : List Input) : (takeInput rest s).cfg = s.cfg := rfl
@[simp] theorem takeInput_status (rest : List Input) : (takeInput rest s).status = s.status := rfl
@[simp] theorem takeInput_ie (rest : List Input) : (takeInput rest s).ie = s.ie := rfl
@[simp] theorem takeInput_operand (rest : List Input) : (takeInput rest s).operand = s.operand := rfl
@[simp] theorem takeInput_result (rest : List Input) : (takeInput rest s).result = s.result := rfl
@[simp] theorem takeInput_key (rest : List Input) : (takeInput rest s).key = s.key := rfl
@[simp] theorem takeInput_block (rest : List Input) : (takeInput rest s).block = s.block := rfl
@[simp] theorem takeInput_tables (rest : List Input) : (takeInput rest s).tables = s.tables := rfl
@[simp] theorem takeInput_sched (rest : List Input) : (takeInput rest s).sched = s.sched := rfl
@[simp] theorem takeInput_phase (rest : List Input) : (takeInput rest s).phase = s.phase := rfl
@[simp] theorem takeInput_inputs (rest : List Input) : (takeInput rest s).inputs = rest := rfl
@[simp] theorem takeInput_wait (rest : List Input) : (takeInput rest s).wait = s.wait - 1 := rfl
@[simp] theorem takeInput_rdata (rest : List Input) : (takeInput rest s).rdata = s.rdata := rfl
@[simp] theorem takeInput_draws (rest : List Input) : (takeInput rest s).draws = s.draws := rfl
@[simp] theorem takeInput_resets (rest : List Input) : (takeInput rest s).resets = s.resets := rfl

/-! ### finish -/

@[simp] theorem finish_params : (finish s).params = s.params := rfl
@[simp] theorem finish_cfg : (finish s).cfg = s.cfg := rfl
@[simp] theorem finish_status : (finish s).status = statusComplete s.status := rfl
@[simp] theorem finish_ie : (finish s).ie = s.ie := rfl
@[simp] theorem finish_operand : (finish s).operand = s.operand := rfl
@[simp] theorem finish_result : (finish s).result = s.result := rfl
@[simp] theorem finish_key : (finish s).key = s.key := rfl
@[simp] theorem finish_block : (finish s).block = s.block := rfl
@[simp] theorem finish_tables : (finish s).tables = s.tables := rfl
@[simp] theorem finish_sched : (finish s).sched = s.sched := rfl
@[simp] theorem finish_phase : (finish s).phase = .idle := rfl
@[simp] theorem finish_inputs : (finish s).inputs = s.inputs := rfl
@[simp] theorem finish_wait : (finish s).wait = s.wait := rfl
@[simp] theorem finish_rdata : (finish s).rdata = s.rdata := rfl
@[simp] theorem finish_draws : (finish s).draws = s.draws := rfl
@[simp] theorem finish_resets : (finish s).resets = s.resets := rfl

/-! ### resetStep -/

@[simp] theorem resetStep_params : (resetStep s).params = s.params := rfl
@[simp] theorem resetStep_cfg : (resetStep s).cfg = Cfg.reset := rfl
@[simp] theorem resetStep_status : (resetStep s).status = Status.reset := rfl
@[simp] theorem resetStep_ie : (resetStep s).ie = false := rfl
@[simp] theorem resetStep_operand : (resetStep s).operand = 0#32 := rfl
@[simp] theorem resetStep_result : (resetStep s).result = 0#32 := rfl
@[simp] theorem resetStep_key : (resetStep s).key = List.replicate s.params.nkMax 0#32 := rfl
@[simp] theorem resetStep_block : (resetStep s).block = List.replicate s.params.nbMax 0#32 := rfl
@[simp] theorem resetStep_tables : (resetStep s).tables = [] := rfl
@[simp] theorem resetStep_sched : (resetStep s).sched = (List.range s.params.schedWords).map (Config.schedInit (s.resets + 1)) := rfl
@[simp] theorem resetStep_phase : (resetStep s).phase = .idle := rfl
@[simp] theorem resetStep_inputs : (resetStep s).inputs = s.inputs := rfl
@[simp] theorem resetStep_wait : (resetStep s).wait = 0 := rfl
@[simp] theorem resetStep_rdata : (resetStep s).rdata = s.rdata := rfl
@[simp] theorem resetStep_draws : (resetStep s).draws = s.draws := rfl
@[simp] theorem resetStep_resets : (resetStep s).resets = s.resets + 1 := rfl

variable (st : Status)

/-! ### statusW1C -/

@[simp] theorem statusW1C_busy (d : Word) : (statusW1C d st).busy = st.busy := rfl
@[simp] theorem statusW1C_valid (d : Word) : (statusW1C d st).valid = st.valid := rfl
@[simp] theorem statusW1C_done (d : Word) : (statusW1C d st).done = (st.done && !d.getLsbD 2) := rfl
@[simp] theorem statusW1C_busyErr (d : Word) : (statusW1C d st).busyErr = (st.busyErr && !d.getLsbD 3) := rfl
@[simp] theorem statusW1C_lockErr (d : Word) : (statusW1C d st).lockErr = (st.lockErr && !d.getLsbD 4) := rfl
@[simp] theorem statusW1C_err (d : Word) : (statusW1C d st).err = st.err := rfl

/-! ### statusReject -/

@[simp] theorem statusReject_busy (c : ErrCode) : (statusReject c st).busy = st.busy := rfl
@[simp] theorem statusReject_valid (c : ErrCode) : (statusReject c st).valid = st.valid := rfl
@[simp] theorem statusReject_done (c : ErrCode) : (statusReject c st).done = true := rfl
@[simp] theorem statusReject_busyErr (c : ErrCode) : (statusReject c st).busyErr = st.busyErr := rfl
@[simp] theorem statusReject_lockErr (c : ErrCode) : (statusReject c st).lockErr = st.lockErr := rfl
@[simp] theorem statusReject_err (c : ErrCode) : (statusReject c st).err = errCode c := rfl

/-! ### statusAccept -/

@[simp] theorem statusAccept_busy : (statusAccept st).busy = true := rfl
@[simp] theorem statusAccept_valid : (statusAccept st).valid = st.valid := rfl
@[simp] theorem statusAccept_done : (statusAccept st).done = false := rfl
@[simp] theorem statusAccept_busyErr : (statusAccept st).busyErr = st.busyErr := rfl
@[simp] theorem statusAccept_lockErr : (statusAccept st).lockErr = st.lockErr := rfl
@[simp] theorem statusAccept_err : (statusAccept st).err = st.err := rfl

/-! ### statusComplete -/

@[simp] theorem statusComplete_busy : (statusComplete st).busy = false := rfl
@[simp] theorem statusComplete_valid : (statusComplete st).valid = st.valid := rfl
@[simp] theorem statusComplete_done : (statusComplete st).done = true := rfl
@[simp] theorem statusComplete_busyErr : (statusComplete st).busyErr = st.busyErr := rfl
@[simp] theorem statusComplete_lockErr : (statusComplete st).lockErr = st.lockErr := rfl
@[simp] theorem statusComplete_err : (statusComplete st).err = errCode .ok := rfl

end Sys2Proof.Machine
end

