-- ==== Sys2Proof/Laws/Ops.lean ====
section
/-! SUPPORT. One lemma per shared operation that says everything it can do, for the proofs to cite in place of unfolding it. -/

namespace Sys2Proof.Machine

/-- Free values do not depend on the words of SCHED that no Cipher State holds. -/
theorem observed_congr_sched {s : State} {ws : List Word}
    (h : s.status.valid = true → ws.take s.cfg.words = s.sched.take s.cfg.words) :
    ({ s with sched := ws } : State).observed = s.observed := by
  cases hv : s.status.valid
  · simp [State.observed, hv]
  · simp [State.observed, hv, h hv]

/-- A host write is dropped exactly while BUSY = 1. -/
theorem whenNotBusy_of_busy {s : State} (k : State → State) (h : s.status.busy = true) : whenNotBusy k s = dropBusy s := by
  simp [whenNotBusy, h]

/-- A host write takes effect while BUSY = 0. -/
theorem whenNotBusy_of_idle {s : State} (k : State → State) (h : s.status.busy = false) : whenNotBusy k s = k s := by
  simp [whenNotBusy, h]

/-- A host write is dropped, or takes effect. -/
theorem whenNotBusy_cases (k : State → State) (s : State) :
    (s.status.busy = true ∧ whenNotBusy k s = dropBusy s) ∨ (s.status.busy = false ∧ whenNotBusy k s = k s) := by
  cases h : s.status.busy <;> simp [whenNotBusy, h]

/-- A command that needs a Cipher State is accepted with one and rejected without. -/
theorem acceptIfValid_cases (op : Opcode) (s : State) :
    (s.status.valid = true ∧ acceptIfValid op s = accept op s) ∨
    (s.status.valid = false ∧ acceptIfValid op s = reject .noSchedule s) := by
  cases h : s.status.valid <;> simp [acceptIfValid, h]

/-- EXPAND's checks all pass exactly when there is no Cipher State and CFG is legal. -/
theorem expandCheck_eq_none (s : State) : expandCheck s = none ↔ s.status.valid = false ∧ s.cfg.Legal s.params := by
  cases h : s.status.valid
  · simp only [expandCheck, h, Bool.false_eq_true, if_false, true_and]
    split_ifs with h1 h2
    · simp only [false_iff]
      rintro ⟨⟨a, b⟩, ⟨c, d⟩, e, f, g⟩
      omega
    · simp only [false_iff]
      rintro ⟨-, -, -, -, g⟩
      omega
    · simp only [true_iff]
      exact ⟨by omega, by omega, by omega, by omega, by omega⟩
  · simp [expandCheck, h]

/-- EXPAND is accepted without a Cipher State and with a legal CFG, and rejected otherwise. -/
theorem issueExpand_cases (s : State) :
    (s.status.valid = false ∧ s.cfg.Legal s.params ∧ issueExpand s = accept .expand s) ∨
    (∃ c, expandCheck s = some c ∧ issueExpand s = reject c s) := by
  cases h : expandCheck s with
  | none => exact .inl ⟨((expandCheck_eq_none s).1 h).1, ((expandCheck_eq_none s).1 h).2, by simp [issueExpand, h]⟩
  | some c => exact .inr ⟨c, rfl, by simp [issueExpand, h]⟩

/-- What issuing a command can do: accept it, under its conditions, or reject it. -/
theorem issueOp_cases (op : Opcode) (s : State) :
    (issueOp op s = accept op s ∧ (needsSchedule op = true → s.status.valid = true) ∧
      (op = .expand → s.status.valid = false ∧ s.cfg.Legal s.params)) ∨
    (∃ c, issueOp op s = reject c s) := by
  cases op with
  | nop => exact .inl ⟨rfl, by simp [needsSchedule], by simp⟩
  | gfmul => exact .inl ⟨rfl, by simp [needsSchedule], by simp⟩
  | subwF => exact .inl ⟨rfl, by simp [needsSchedule], by simp⟩
  | subwI => exact .inl ⟨rfl, by simp [needsSchedule], by simp⟩
  | expand =>
    rcases issueExpand_cases s with ⟨h1, h2, h3⟩ | ⟨c, -, h⟩
    · exact .inl ⟨h3, by simp [needsSchedule], fun _ => ⟨h1, h2⟩⟩
    · exact .inr ⟨c, h⟩
  | encrypt =>
    rcases acceptIfValid_cases .encrypt s with ⟨h1, h2⟩ | ⟨-, h⟩
    · exact .inl ⟨h2, fun _ => h1, by simp⟩
    · exact .inr ⟨_, h⟩
  | decrypt =>
    rcases acceptIfValid_cases .decrypt s with ⟨h1, h2⟩ | ⟨-, h⟩
    · exact .inl ⟨h2, fun _ => h1, by simp⟩
    · exact .inr ⟨_, h⟩
  | release =>
    rcases acceptIfValid_cases .release s with ⟨h1, h2⟩ | ⟨-, h⟩
    · exact .inl ⟨h2, fun _ => h1, by simp⟩
    · exact .inr ⟨_, h⟩

/-- What a write to CMD can do: issue the command it names, or reject the word. -/
theorem issueCommand_cases (v : Word) (s : State) :
    (∃ op, decodeOp v = some op ∧ issueCommand v s = issueOp op s) ∨
    (decodeOp v = none ∧ issueCommand v s = reject .illegalCmd s) := by
  cases h : decodeOp v with
  | none => exact .inr ⟨rfl, by simp [issueCommand, h, issueIllegal]⟩
  | some op => exact .inl ⟨op, rfl, by simp [issueCommand, h]⟩

/-- What a host read can do: return a free value, for a volatile target while BUSY = 1, or the current value. -/
theorem busRead_cases (a : BitVec 11) (s : State) :
    (s.status.busy = true ∧ (target s.params a).volatile = true ∧ busRead a s = freeRead a s) ∨
    (¬(s.status.busy = true ∧ (target s.params a).volatile = true) ∧
      busRead a s = setRdata (readTarget s (target s.params a)) s) := by
  by_cases h : s.status.busy = true ∧ (target s.params a).volatile = true
  · exact .inl ⟨h.1, h.2, if_pos h⟩
  · exact .inr ⟨h, if_neg h⟩

/-- What a host read changes: the return path, and at most the count of draws. -/
theorem busRead_eq (a : BitVec 11) (s : State) :
    ∃ v n, busRead a s = { s with rdata := v, draws := n } := by
  rcases busRead_cases a s with ⟨-, -, h⟩ | ⟨-, h⟩ <;> exact ⟨_, _, h⟩

/-- What a host write can do: be dropped while BUSY = 1, be dropped by the lock, or reach its target. -/
theorem busWrite_cases (a : BitVec 11) (v : Word) (s : State) :
    (s.status.busy = true ∧ busWrite a v s = dropBusy s) ∨
    (s.status.busy = false ∧ s.status.valid = true ∧ (target s.params a).locked = true ∧ busWrite a v s = dropLocked s) ∨
    (s.status.busy = false ∧ ((target s.params a).locked = true → s.status.valid = false) ∧
      busWrite a v s = writeTarget (target s.params a) v s) := by
  rcases whenNotBusy_cases (writeUnlocked a v) s with ⟨h, e⟩ | ⟨h, e⟩
  · exact .inl ⟨h, e⟩
  · refine .inr ?_
    by_cases hl : (target s.params a).locked = true ∧ s.status.valid = true
    · exact .inl ⟨h, hl.2, hl.1, by rw [busWrite, e, writeUnlocked, if_pos hl]⟩
    · refine .inr ⟨h, fun ht => ?_, by rw [busWrite, e, writeUnlocked, if_neg hl]⟩
      cases hv : s.status.valid
      · rfl
      · exact absurd ⟨ht, hv⟩ hl

/-- The completion step, its fields besides those the command performs. -/
theorem complete_eq (op : Opcode) (s : State) :
    complete op s = { perform op s with status := statusComplete (perform op s).status, phase := .idle } := rfl

end Sys2Proof.Machine
end

