-- ==== Sys2Proof/Laws/PerInstr.lean ====
section
/-! SUPPORT. Statements made per instruction: the encoding of each instruction has the fixed bits of its row of the opcode
table. -/

namespace Sys2Proof.Laws.TableRow

open Sys2Proof.Machine

/-- Mask and match of a row in the CMD format (R62). -/
def cmdRow (mask bits : Word) (c : Code) : Prop := ∃ v, c = .cmd v ∧ v &&& mask = bits

/-- A row in the BUS format fixes bit 43 only (R60). -/
def busRow (w : Bool) (c : Code) : Prop := ∃ f, c = .bus f ∧ f.getLsbD 43 = w

/-- The encoding of a well-formed instruction has the fixed bits of its row; ILLEGAL's row is bit 3 (R64), or a bit of RSV is set
(R63). -/
def Statement (i : Instr) : Prop :=
  i.wellFormed = true →
    match i with
    | .nop => cmdRow 0xFFFFFFFF#32 0x00000000#32 (encode i)
    | .expand => cmdRow 0xFFFFFFFF#32 0x00000001#32 (encode i)
    | .encrypt => cmdRow 0xFFFFFFFF#32 0x00000002#32 (encode i)
    | .decrypt => cmdRow 0xFFFFFFFF#32 0x00000003#32 (encode i)
    | .release => cmdRow 0xFFFFFFFF#32 0x00000004#32 (encode i)
    | .gfmul => cmdRow 0xFFFFFFFF#32 0x00000005#32 (encode i)
    | .subwF => cmdRow 0xFFFFFFFF#32 0x00000006#32 (encode i)
    | .subwI => cmdRow 0xFFFFFFFF#32 0x00000007#32 (encode i)
    | .illegal _ => ∃ v, encode i = .cmd v ∧ (v.getLsbD 3 = true ∨ v.extractLsb' 4 28 ≠ 0#28)
    | .busRd _ _ => busRow false (encode i)
    | .busWr _ _ => busRow true (encode i)

theorem nop : Statement .nop := fun _ => ⟨_, rfl, by decide⟩
theorem expand : Statement .expand := fun _ => ⟨_, rfl, by decide⟩
theorem encrypt : Statement .encrypt := fun _ => ⟨_, rfl, by decide⟩
theorem decrypt : Statement .decrypt := fun _ => ⟨_, rfl, by decide⟩
theorem release : Statement .release := fun _ => ⟨_, rfl, by decide⟩
theorem gfmul : Statement .gfmul := fun _ => ⟨_, rfl, by decide⟩
theorem subwF : Statement .subwF := fun _ => ⟨_, rfl, by decide⟩
theorem subwI : Statement .subwI := fun _ => ⟨_, rfl, by decide⟩

theorem illegal (w : Word) : Statement (.illegal w) := fun h => ⟨w, rfl, by
  simpa [Instr.wellFormed, reservedBitsSet, reservedOp, or_comm] using h⟩

theorem busRd (a : BitVec 11) (d : Word) : Statement (.busRd a d) := fun _ => ⟨_, rfl, busFrame_write false a d⟩
theorem busWr (a : BitVec 11) (d : Word) : Statement (.busWr a d) := fun _ => ⟨_, rfl, busFrame_write true a d⟩

end Sys2Proof.Laws.TableRow
end

