-- ==== Sys2Proof/Laws/Step.lean ====
section
/-! SUPPORT. What a step can do, said once: the cases of nextMove and of step. -/

namespace Sys2Proof.Machine

/-- A completion step is due: a command is in flight, and its LATENCY has passed or nothing is pending. -/
def Due (s : State) (op : Opcode) : Prop := s.phase = .busy op ∧ (s.wait = 0 ∨ s.inputs = [])

/-- A pending input comes next: no completion step is due. -/
def InputNext (s : State) : Prop := s.phase = .idle ∨ (0 < s.wait ∧ s.inputs ≠ [])

/-- When a completion step is due, it comes next. -/
theorem nextMove_of_due {s : State} {op : Opcode} (h : Due s op) : nextMove s = .completion op := by
  simp [nextMove, h.1, h.2]

/-- When no completion step is due, the next input comes next. -/
theorem nextMove_of_inputNext {s : State} (h : InputNext s) : nextMove s = inputMove s.inputs := by
  rcases h with h | ⟨h1, h2⟩
  · simp [nextMove, h]
  · cases hp : s.phase with
    | idle => simp [nextMove, hp]
    | busy op => simp [nextMove, hp, h2, Nat.pos_iff_ne_zero.1 h1]

/-- One of the two holds. -/
theorem due_or_inputNext (s : State) : (∃ op, Due s op) ∨ InputNext s := by
  cases hp : s.phase with
  | idle => exact .inr (.inl hp)
  | busy op =>
    by_cases h : s.wait = 0 ∨ s.inputs = []
    · exact .inl ⟨op, hp, h⟩
    · push Not at h
      exact .inr (.inr ⟨Nat.pos_of_ne_zero h.1, h.2⟩)

/-- Everything a step can do. -/
theorem step_cases {s t : State} (h : step s = .next t) :
    (∃ op, Due s op ∧ t = complete op s) ∨
    (InputNext s ∧ ∃ f rest, s.inputs = .bus f :: rest ∧ exec (decode (.bus f)) (takeInput rest s) = .next t) ∨
    (InputNext s ∧ ∃ rest, s.inputs = .rst :: rest ∧ t = resetStep (takeInput rest s)) ∨
    (s.phase = .idle ∧ s.inputs = [] ∧ t = s) := by
  rcases due_or_inputNext s with ⟨op, hd⟩ | hi
  · simp only [step, nextMove_of_due hd, Host.Outcome.next.injEq] at h
    exact .inl ⟨op, hd, h.symm⟩
  · rw [step, nextMove_of_inputNext hi] at h
    cases hin : s.inputs with
    | nil =>
      simp only [hin, inputMove, Host.Outcome.next.injEq] at h
      have : s.phase = .idle := hi.resolve_right (fun h => h.2 hin)
      exact .inr (.inr (.inr ⟨this, rfl, h.symm⟩))
    | cons x rest =>
      cases x with
      | bus f =>
        simp only [hin, inputMove] at h
        exact .inr (.inl ⟨hi, f, rest, rfl, h⟩)
      | rst =>
        simp only [hin, inputMove, Host.Outcome.next.injEq] at h
        exact .inr (.inr (.inl ⟨hi, rest, rfl, h.symm⟩))

/-- A host transaction is a read or a write. -/
theorem decode_bus_cases (f : BitVec 44) :
    (∃ a d, decode (.bus f) = .busRd a d) ∨ (∃ a d, decode (.bus f) = .busWr a d) := by
  simp only [decode, decodeBus]
  split_ifs
  · exact .inr ⟨_, _, rfl⟩
  · exact .inl ⟨_, _, rfl⟩

end Sys2Proof.Machine
end

