-- ==== Sys2Proof/Tests/Slice0.lean ====
section
/-! SUPPORT. The model's own tests, from the examples of 95_test_vectors.md (named T<n> there), and a witness for the hypotheses
of every statement that has some. -/

namespace Sys2Proof.Tests

open Sys2Proof.Machine Sys2Proof.Statements

/-! ## Well-formedness -/

/-- A word of a command is no ILLEGAL: 0 and 7 are refused. -/
theorem test_command_word_is_not_illegal :
    (Instr.illegal 0#32).wellFormed = false ∧ (Instr.illegal 7#32).wellFormed = false := by decide

/-- R64 alone (8, 15) and R63 alone (0x10, 0x11) make a word ILLEGAL. -/
theorem test_reserved_word_is_illegal :
    (Instr.illegal 8#32).wellFormed = true ∧ (Instr.illegal 15#32).wellFormed = true ∧
    (Instr.illegal 0x10#32).wellFormed = true ∧ (Instr.illegal 0x11#32).wellFormed = true := by decide

/-! ## Decoding: words written out from R60 to R62 -/

theorem test_decode_nop : decodeTableWord 32 0b00000000000000000000000000000000 = some .nop := by decide
theorem test_decode_expand : decodeTableWord 32 0b00000000000000000000000000000001 = some .expand := by decide
theorem test_decode_encrypt : decodeTableWord 32 0b00000000000000000000000000000010 = some .encrypt := by decide
theorem test_decode_decrypt : decodeTableWord 32 0b00000000000000000000000000000011 = some .decrypt := by decide
theorem test_decode_release : decodeTableWord 32 0b00000000000000000000000000000100 = some .release := by decide
theorem test_decode_gfmul : decodeTableWord 32 0b00000000000000000000000000000101 = some .gfmul := by decide
theorem test_decode_subwF : decodeTableWord 32 0b00000000000000000000000000000110 = some .subwF := by decide
theorem test_decode_subwI : decodeTableWord 32 0b00000000000000000000000000000111 = some .subwI := by decide

/-- OP = 1 with RSV = 1 (bits 31..4). -/
theorem test_decode_illegal : decodeTableWord 32 0b00000000000000000000000000010001 = some (.illegal 0x11#32) := by decide

/-- P1 line 10: W = 0, A = 0x42B, D = 0. -/
theorem test_decode_busRd :
    decodeTableWord 48 0b01000010101100000000000000000000000000000000 = some (.busRd 0x42B#11 0#32) := by decide

/-- P1 line 3: W = 1, A = 0x002, D = 0x000A0404. -/
theorem test_decode_busWr :
    decodeTableWord 48 0b10000000001000000000000010100000010000000100 = some (.busWr 0x002#11 0x000A0404#32) := by decide

/-- Bit 44 is not the port's. -/
theorem test_decode_refuses_bit_44 : codeOfTableWord 48 (2 ^ 44) = .error .busTooWide := by rfl

/-! ## A small instance -/

/-- What an outcome leads to; it has no other (R123). -/
def stateAfter (o : Host.Outcome State Fault Refusal) (s : State) : State :=
  match o with
  | .next t => t
  | .fault _ => s
  | .refused _ => s

/-- The state after one instruction. -/
def issued (i : Instr) (s : State) : State := stateAfter (exec i s) s

/-- The state after one instruction and, its LATENCY passed, one step. -/
def completed (i : Instr) (s : State) : State := stateAfter (step { issued i s with wait := 0 }) s

/-- An instance with one KEY word, one BLOCK word and two schedule words, NK = NB = NR = 1 (T13, last case). -/
def small : State :=
  { State.resetWith { nkMax := 1, nbMax := 1, schedWords := 2 } 0 with
    cfg := { nk := 1#4, nb := 1#4, nr := 1#5, fsel := false, isel := false }
    key := [0x00010203#32]
    block := [0x00112233#32] }

/-- `small` with its Cipher State (T13, last case). -/
def smallValid : State :=
  { small with sched := [0x00010203#32, 0x7D767960#32], status := { small.status with valid := true, done := true } }

/-- `s` with the command `op` in flight and `n` transactions to come before its completion. -/
def inFlight (op : Opcode) (n : Nat) (s : State) : State :=
  { s with phase := .busy op, wait := n, status := { s.status with busy := true, done := false } }

/-- The reset state with another CFG. -/
def withCfg (v : Word) (s : State) : State := { s with cfg := cfgOfWord v }

/-! ## The instructions (T20 to T50) -/

/-- T50: NOP from reset reads 0x1 while BUSY, then 0x4. -/
theorem test_nop_status :
    statusWord (issued .nop State.reset).status = 0x00000001#32 ∧
    statusWord (completed .nop State.reset).status = 0x00000004#32 := by decide

/-- T50: EXPAND is rejected with BAD_CONFIG for NK = 5 > NB*(NR+1) = 2, and with NO_SPACE for 128 words. -/
theorem test_expand_rejections :
    statusWord (issued .expand (withCfg 0x00010105#32 State.reset)).status = 0x00000204#32 ∧
    statusWord (issued .expand (withCfg 0x000F0804#32 State.reset)).status = 0x00000504#32 := by decide

/-- T13: NK = NB = NR = 1, and VALID and DONE read as 0x6 (T50). -/
theorem test_expand_small :
    (completed .expand small).sched = [0x00010203#32, 0x7D767960#32] ∧
    statusWord (completed .expand small).status = 0x00000006#32 := by decide +kernel

/-- T42, fourth row: ENCRYPT. -/
theorem test_encrypt_small : (completed .encrypt smallValid).block = [0x1EBCCE64#32] := by decide +kernel

/-- T50: ENCRYPT from reset is rejected with NO_SCHEDULE. -/
theorem test_encrypt_no_schedule : statusWord (issued .encrypt State.reset).status = 0x00000304#32 := by decide

/-- T42, fourth row: DECRYPT. -/
theorem test_decrypt_small :
    (completed .decrypt { smallValid with block := [0x1EBCCE64#32] }).block = [0x00112233#32] := by decide +kernel

/-- P2 lines 9, 10: RELEASE clears VALID and keeps the words of SCHED. -/
theorem test_release :
    statusWord (completed .release smallValid).status = 0x00000004#32 ∧
    (completed .release smallValid).sched = [0x00010203#32, 0x7D767960#32] := by decide

/-- T20: GFMUL ignores OPERAND[31:16]. -/
theorem test_gfmul : (completed .gfmul { State.reset with operand := 0xFFFF8357#32 }).result = 0x000000C1#32 := by decide

/-- T24: SUBW_F through SBOX. -/
theorem test_subwF : (completed .subwF { State.reset with operand := 0x00102030#32 }).result = 0x63CAB704#32 := by decide

/-- R81: with FSEL = 1 the table is FTAB (here FTAB[1] = 0x07). -/
theorem test_subwF_custom_table :
    (completed .subwF { withCfg 0x010A0404#32 State.reset with operand := 0x01010101#32, tables := [(0x404, 0x07#8)] }).result
      = 0x07070707#32 := by decide

/-- T25: SUBW_I through INV_SBOX. -/
theorem test_subwI : (completed .subwI { State.reset with operand := 0x63CAB704#32 }).result = 0x00102030#32 := by decide

/-- T50: the illegal words 0x8 and 0x11. -/
theorem test_illegal :
    statusWord (issued (.illegal 0x8#32) State.reset).status = 0x00000104#32 ∧
    statusWord (issued (.busWr 0x003#11 0x11#32) State.reset).status = 0x00000104#32 := by decide

/-- P1 lines 1, 2: ID and PARAMS. -/
theorem test_busRd_identification :
    (issued (.busRd 0x000#11 0#32) State.reset).rdata = 0x41455331#32 ∧
    (issued (.busRd 0x001#11 0#32) State.reset).rdata = 0x00780808#32 := by decide

/-- R52: SCHED reads its words with a Cipher State (A = 0x401 is SCHED[1]) and 0 without (P2 line 11). -/
theorem test_busRd_schedule :
    (issued (.busRd 0x401#11 0#32) smallValid).rdata = 0x7D767960#32 ∧
    (issued (.busRd 0x401#11 0#32) { smallValid with status := small.status }).rdata = 0#32 := by decide

/-- T50: a locked CFG write is dropped with LOCKERR. -/
theorem test_busWr_locked :
    statusWord (issued (.busWr 0x002#11 0x000C0406#32) smallValid).status = 0x00000016#32 ∧
    (issued (.busWr 0x002#11 0x000C0406#32) smallValid).cfg = smallValid.cfg := by decide

/-- T50: OPERAND written while BUSY = 1 is dropped with BUSYERR. -/
theorem test_busWr_while_busy :
    statusWord (issued (.busWr 0x006#11 0x1#32) (inFlight .gfmul 3 State.reset)).status = 0x00000009#32 ∧
    (issued (.busWr 0x006#11 0x1#32) (inFlight .gfmul 3 State.reset)).operand = 0#32 := by decide

/-! ## The engines (T1, T10 to T32) -/

/-- T1: AES-128, key schedule and forward engine. -/
theorem test_aes128 :
    cipher sbox (expand [0x00010203#32, 0x04050607#32, 0x08090A0B#32, 0x0C0D0E0F#32] Cfg.reset sbox) 4 10
      [0x00112233#32, 0x44556677#32, 0x8899AABB#32, 0xCCDDEEFF#32]
      = [0x69C4E0D8#32, 0x6A7B0430#32, 0xD8CDB780#32, 0x70B4C55A#32] := by decide +kernel

/-- T13: NK = 2, NB = 2, NR = 3. -/
theorem test_expand_two_words :
    expand [0x00010203#32, 0x04050607#32] (cfgOfWord 0x00030202#32) sbox =
      [0x00010203#32, 0x04050607#32, 0x6A6EC7F1#32, 0x6E6BC1F6#32, 0x1716856E#32, 0x797D4498#32, 0xEC0DC3D8#32,
       0x95708740#32] := by decide +kernel

/-- T13: NK = 7, NB = 4, NR = 8, SCHED[11], the first word of the NK > 6 case. -/
theorem test_expand_seven_words :
    (expand [0#32, 1#32, 2#32, 3#32, 4#32, 5#32, 6#32] (cfgOfWord 0x00080407#32) sbox).getD 11 0#32 = 0xAAFBA8FF#32 := by
  decide +kernel

/-- T15: RotWord. -/
theorem test_rotWord : rotWord 0x09CF4F3C#32 = 0xCF4F3C09#32 := by decide

/-- T14: the round constants 9 and 20. -/
theorem test_rcon : rcon 9 = 0x1B000000#32 ∧ rc 20 = 0xC6#8 := by decide +kernel

/-- T30, NB = 3. -/
theorem test_shiftRows_three_columns :
    shiftRows [0x00010203#32, 0x04050607#32, 0x08090A0B#32] = [0x00050A03#32, 0x04090207#32, 0x0801060B#32] ∧
    invShiftRows [0x00010203#32, 0x04050607#32, 0x08090A0B#32] = [0x00090603#32, 0x04010A07#32, 0x0805020B#32] := by decide

/-- T32, first row. -/
theorem test_mixCol : mixCol 0xDB135345#32 = 0x8E4DA1BC#32 ∧ invMixCol 0xDB135345#32 = 0x32A41D55#32 := by decide +kernel

/-- T40 and T41, round 9: R104 adds the round key before the inverse Mix-Columns. -/
theorem test_invCipherRound_last :
    invMixColumns [0xE9F74EEC#32, 0x023020F6#32, 0x1BF2CCF2#32, 0x353C21C7#32] =
      [0x54D990A1#32, 0x6BA09AB5#32, 0x96BBF40E#32, 0xA111702F#32] := by decide +kernel

/-! ## Witnesses: the hypotheses of the statements can be met, clause by clause -/

/-- Any pending transaction: BUS_RD of ID. -/
def readId : Input := .bus 0#44

/-- The 44-bit pattern of a write. -/
def writeFrame (a : BitVec 11) (d : Word) : BitVec 44 := busFrame true a d

theorem small_params : small.params.Legal := ⟨by decide, by decide, by decide⟩

theorem reset_params : State.reset.params.Legal := ⟨by decide, by decide, by decide⟩

/-- `small` with its Cipher State, VALID = 1, meets the invariant: the hypotheses on Inv and VALID are met together. -/
theorem witness_smallValid_inv : smallValid.Inv where
  params := small_params
  keyLen := rfl
  blockLen := rfl
  schedLen := rfl
  tables := rfl
  busy := by decide
  err := by decide
  legal := fun _ => ⟨by decide, by decide, by decide, by decide, by decide⟩
  schedule := fun _ => by decide +kernel
  expandOk := fun h => by cases h
  engineOk := fun _ h => by cases h

/-- `small` with EXPAND in flight meets the invariant. -/
theorem witness_expanding_inv : (inFlight .expand 0 small).Inv where
  params := small_params
  keyLen := rfl
  blockLen := rfl
  schedLen := by decide
  tables := rfl
  busy := by decide
  err := by decide
  legal := fun h => by cases h
  schedule := fun h => by cases h
  expandOk := fun _ => ⟨rfl, ⟨by decide, by decide, by decide, by decide, by decide⟩⟩
  engineOk := fun _ h hn => by cases h; cases hn

/-- `smallValid` with ENCRYPT in flight meets the invariant. -/
theorem witness_encrypting_inv : (inFlight .encrypt 1 smallValid).Inv where
  params := small_params
  keyLen := rfl
  blockLen := rfl
  schedLen := rfl
  tables := rfl
  busy := by decide
  err := by decide
  legal := fun _ => ⟨by decide, by decide, by decide, by decide, by decide⟩
  schedule := fun _ => by decide +kernel
  expandOk := fun h => by cases h
  engineOk := fun _ _ _ => rfl

/-- The smallest and the largest parameters are legal. -/
theorem witness_ResetStatesSatisfyInvariant :
    (Params.mk 1 1 1).Legal ∧ (Params.mk 15 15 1024).Legal := ⟨⟨by decide, by decide, by decide⟩, ⟨by decide, by decide, by decide⟩⟩

theorem witness_EncodedInstructionDecodesToItself :
    (Instr.illegal 8#32).wellFormed = true ∧ (Instr.illegal 0xFFFFFFFF#32).wellFormed = true ∧
    (Instr.busWr 0x7FF#11 0xFFFFFFFF#32).wellFormed = true := by decide

theorem witness_StepRunsPendingTransaction :
    { small with inputs := [readId] }.inputs = .bus 0#44 :: [] ∧ { small with inputs := [readId] }.phase = .idle ∧
    { inFlight .nop 1 small with inputs := [readId] }.inputs = .bus 0#44 :: [] ∧ 0 < (inFlight .nop 1 small).wait := by
  decide

theorem witness_FetchWordRunsDecodedInstruction :
    decodeTableWord 32 0xFFFFFFFF = some (.illegal 0xFFFFFFFF#32) ∧
    decodeTableWord 44 (2 ^ 44 - 1) = some (.busWr 0x7FF#11 0xFFFFFFFF#32) := by decide

theorem witness_ResetStepSetsResetValues :
    { smallValid with inputs := [.rst] }.inputs = .rst :: [] ∧ smallValid.phase = .idle ∧
    { inFlight .encrypt 1 smallValid with inputs := [.rst, readId] }.inputs = .rst :: [readId] ∧
    0 < (inFlight .encrypt 1 smallValid).wait := by decide

theorem witness_StepKeepsInvariant :
    (inFlight .expand 0 small).Inv ∧ step (inFlight .expand 0 small) = .next (complete .expand (inFlight .expand 0 small)) :=
  ⟨witness_expanding_inv, rfl⟩

theorem witness_BusyDropsEveryHostWrite :
    (inFlight .nop 1 small).status.busy = true ∧ (∀ a d, Instr.nop ≠ .busRd a d) ∧
    (∀ a d, Instr.busWr 0x002#11 0#32 ≠ .busRd a d) := ⟨rfl, fun _ _ => nofun, fun _ _ => nofun⟩

/-- CFG, FTAB[0], ITAB[255]. -/
theorem witness_LockDropsConfigAndTableWrites :
    smallValid.status.busy = false ∧ smallValid.status.valid = true ∧ LockedOffset (4 * (0x002#11).toNat) ∧
    LockedOffset (4 * (0x100#11).toNat) ∧ LockedOffset (4 * (0x2FF#11).toNat) ∧ ¬ LockedOffset (4 * (0x300#11).toNat) :=
  ⟨rfl, rfl, .inl rfl, .inr (by decide), .inr (by decide), fun h => by rcases h with h | h <;> revert h <;> decide⟩

theorem witness_IllegalCommandIsRejected :
    State.reset.status.busy = false ∧ (0x10#32).extractLsb' 4 28 ≠ 0#28 ∧ 8 ≤ ((8#32).extractLsb' 0 4).toNat := by decide

theorem witness_CommandIsAcceptedOrRejected : State.reset.status.busy = false ∧ smallValid.status.busy = false := by decide

theorem witness_NopRuns : (inFlight .nop 1 small).status.busy = true ∧ State.reset.status.busy = false := by decide

theorem witness_GfmulRuns : { State.reset with operand := 0x00008357#32 }.status.busy = false := by decide

/-- Either table: FSEL = 0, and FSEL = 1. -/
theorem witness_SubwForwardRuns :
    State.reset.status.busy = false ∧ State.reset.cfg.fsel = false ∧
    (withCfg 0x010A0404#32 State.reset).status.busy = false ∧ (withCfg 0x010A0404#32 State.reset).cfg.fsel = true := by decide

/-- Either table: ISEL = 0, and ISEL = 1. -/
theorem witness_SubwInverseRuns :
    State.reset.status.busy = false ∧ State.reset.cfg.isel = false ∧
    (withCfg 0x020A0404#32 State.reset).status.busy = false ∧ (withCfg 0x020A0404#32 State.reset).cfg.isel = true := by decide

/-- NK = 0 and NK = NK_MAX + 1, NB = 0 and NB = NB_MAX + 1, NR = 0, NK > NB*(NR+1). -/
theorem witness_ExpandRunsOrIsRejected_bad_config :
    BadConfig (withCfg 0x000A0400#32 State.reset) ∧ BadConfig (withCfg 0x000A0409#32 State.reset) ∧
    BadConfig (withCfg 0x000A0004#32 State.reset) ∧ BadConfig (withCfg 0x000A0904#32 State.reset) ∧
    BadConfig (withCfg 0x00000404#32 State.reset) ∧ BadConfig (withCfg 0x00010103#32 State.reset) :=
  ⟨.inl (by decide), .inr (.inl (by decide)), .inr (.inr (.inl (by decide))), .inr (.inr (.inr (.inl (by decide)))),
    .inr (.inr (.inr (.inr (.inl (by decide))))), .inr (.inr (.inr (.inr (.inr (by decide)))))⟩

/-- 128 words do not fit in 120. -/
theorem witness_ExpandRunsOrIsRejected_no_space :
    ¬ BadConfig (withCfg 0x000F0804#32 State.reset) ∧ (withCfg 0x000F0804#32 State.reset).status.valid = false ∧
    (withCfg 0x000F0804#32 State.reset).params.schedWords <
      (withCfg 0x000F0804#32 State.reset).cfg.nb.toNat * ((withCfg 0x000F0804#32 State.reset).cfg.nr.toNat + 1) := by
  refine ⟨?_, rfl, by decide⟩
  unfold BadConfig
  decide

/-- A schedule that fills the RAM is accepted: two words of two. -/
theorem witness_ExpandRunsOrIsRejected_accepted :
    small.Inv ∧ small.status.busy = false ∧ small.status.valid = false ∧ ¬ BadConfig small ∧
    small.cfg.nb.toNat * (small.cfg.nr.toNat + 1) = small.params.schedWords := by
  refine ⟨⟨small_params, rfl, rfl, by decide, rfl, by decide, by decide, fun h => ?_, fun h => ?_, fun h => ?_, fun _ h => ?_⟩,
    rfl, rfl, ?_, by decide⟩
  any_goals cases h
  unfold BadConfig
  decide

theorem witness_ExpandRunsOrIsRejected_schedule_present :
    smallValid.status.busy = false ∧ smallValid.status.valid = true := by decide

/-- Without and with a Cipher State. -/
theorem witness_ReleaseRunsOrIsRejected :
    small.status.busy = false ∧ small.status.valid = false ∧ smallValid.status.busy = false ∧ smallValid.status.valid = true := by
  decide

/-- Without and with a Cipher State. -/
theorem witness_EncryptRunsOrIsRejected :
    small.status.busy = false ∧ small.status.valid = false ∧ smallValid.status.busy = false ∧ smallValid.status.valid = true := by
  decide

/-- Without and with a Cipher State. -/
theorem witness_DecryptRunsOrIsRejected :
    small.status.busy = false ∧ small.status.valid = false ∧ smallValid.status.busy = false ∧ smallValid.status.valid = true := by
  decide

theorem witness_ReadReturnsMappedValue : State.reset.params.Legal ∧ State.reset.status.busy = false := ⟨reset_params, rfl⟩

/-- RESULT, the last word of BLOCK and of SCHED are volatile; the word behind each is not. -/
theorem witness_BusyReadIsFreeOrCurrent :
    (inFlight .nop 1 small).params.Legal ∧ (inFlight .nop 1 small).status.busy = true ∧
    VolatileOffset (inFlight .nop 1 small) (4 * (0x007#11).toNat) ∧ VolatileOffset (inFlight .nop 1 small) (4 * (0x020#11).toNat) ∧
    VolatileOffset (inFlight .nop 1 small) (4 * (0x401#11).toNat) ∧
    ¬ VolatileOffset (inFlight .nop 1 small) (4 * (0x021#11).toNat) ∧
    ¬ VolatileOffset (inFlight .nop 1 small) (4 * (0x402#11).toNat) := by
  refine ⟨small_params, rfl, ?_⟩
  unfold VolatileOffset
  decide

/-- CMD, the last byte offset, and a lock that does not hold. -/
theorem witness_WriteIsHandledInOrder :
    smallValid.params.Legal ∧ (inFlight .nop 1 small).status.busy = true ∧ smallValid.status.busy = false ∧
    smallValid.status.valid = true ∧ LockedOffset (4 * (0x002#11).toNat) ∧
    ¬ (small.status.valid = true ∧ LockedOffset (4 * (0x002#11).toNat)) ∧ 4 * (0x003#11).toNat = 0x00C ∧
    4 * (0x7FF#11).toNat ≠ 0x00C :=
  ⟨small_params, rfl, rfl, rfl, .inl rfl, (fun h => by cases h.1), rfl, by decide⟩

theorem witness_ConfigHoldsWrittenFields : State.reset.status.busy = false ∧ State.reset.status.valid = false := by decide

theorem witness_StatusWriteClearsWrittenBits : smallValid.status.busy = false ∧ smallValid.status.done = true := by decide

/-- KEY[0] and BLOCK[0], the only ones of the small instance. -/
theorem witness_KeyAndBlockWordsReadBack :
    smallValid.Inv ∧ smallValid.status.busy = false ∧
    (0x040 ≤ 4 * (0x010#11).toNat ∧ 4 * (0x010#11).toNat < 0x040 + 4 * smallValid.params.nkMax) ∧
    (0x080 ≤ 4 * (0x020#11).toNat ∧ 4 * (0x020#11).toNat < 0x080 + 4 * smallValid.params.nbMax) :=
  ⟨witness_smallValid_inv, rfl, by decide, by decide⟩

/-- FTAB[0] and ITAB[255]. -/
theorem witness_TableEntryReadsBack :
    0x400 ≤ 4 * (0x100#11).toNat ∧ 4 * (0x100#11).toNat < 0xC00 ∧ 0x400 ≤ 4 * (0x2FF#11).toNat ∧ 4 * (0x2FF#11).toNat < 0xC00 ∧
    State.reset.status.busy = false ∧ State.reset.status.valid = false := by decide

theorem witness_BusyHostStepOnlySetsBusyerr :
    (inFlight .nop 1 small).status.busy = true ∧
    { inFlight .nop 1 small with status := { (inFlight .nop 1 small).status with busyErr := true } }.status.busyErr = true := by
  decide

/-- VALID changes at the completion of EXPAND and of RELEASE, and at a reset. -/
theorem witness_OnlyExpandReleaseResetChangeValid :
    step (inFlight .expand 0 small) = .next (complete .expand (inFlight .expand 0 small)) ∧
    (complete .expand (inFlight .expand 0 small)).status.valid ≠ (inFlight .expand 0 small).status.valid ∧
    step (inFlight .release 0 smallValid) = .next (complete .release (inFlight .release 0 smallValid)) ∧
    (complete .release (inFlight .release 0 smallValid)).status.valid ≠ (inFlight .release 0 smallValid).status.valid ∧
    step { smallValid with inputs := [.rst] } = .next (resetStep smallValid) ∧
    (resetStep smallValid).status.valid ≠ { smallValid with inputs := [.rst] }.status.valid :=
  ⟨rfl, by decide, rfl, by decide, rfl, by decide⟩

/-- The completion of ENCRYPT keeps the Cipher State. -/
theorem witness_CipherStateIsImmutable :
    (inFlight .encrypt 1 smallValid).Inv ∧
    step (inFlight .encrypt 1 smallValid) = .next (complete .encrypt (inFlight .encrypt 1 smallValid)) ∧
    (inFlight .encrypt 1 smallValid).status.valid = true ∧
    (complete .encrypt (inFlight .encrypt 1 smallValid)).status.valid = true :=
  ⟨witness_encrypting_inv, rfl, rfl, rfl⟩

/-- SCHED, RESULT and BLOCK change at completions, KEY and BLOCK by host writes (writing 5 to word 0). -/
theorem witness_DataRegistersHaveTheirOwnWriters :
    (complete .expand { inFlight .expand 0 small with sched := [0#32, 0#32] }).sched ≠ [0#32, 0#32] ∧
    (complete .subwF (inFlight .subwF 0 small)).result ≠ small.result ∧
    (complete .encrypt (inFlight .encrypt 0 smallValid)).block ≠ smallValid.block ∧
    step { small with inputs := [.bus (writeFrame 0x010#11 5#32)] } = .next { small with key := [5#32] } ∧
    step { small with inputs := [.bus (writeFrame 0x020#11 5#32)] } = .next { small with block := [5#32] } :=
  ⟨by decide +kernel, by decide +kernel, by decide +kernel, rfl, rfl⟩

/-- CLRST clears both bits: STATUS written with 0x1C. -/
theorem witness_ErrorBitsStayUntilCleared :
    step { small with status := { small.status with busyErr := true, lockErr := true },
                      inputs := [.bus (writeFrame 0x004#11 0x1C#32)] } = .next small ∧
    small.resets = small.resets ∧ small.status.busyErr = false ∧ small.status.lockErr = false := ⟨rfl, rfl, rfl, rfl⟩

/-- A pending interrupt goes away at CLRST, at an accepted NOP, at IE = 0 and at a reset. -/
theorem witness_InterruptStaysPendingUntilCleared :
    irq { smallValid with ie := true } = true ∧
    irq (stateAfter (step { smallValid with ie := true, inputs := [.bus (writeFrame 0x004#11 0x1C#32)] }) small) = false ∧
    irq (stateAfter (step { smallValid with ie := true, inputs := [.bus (writeFrame 0x003#11 0#32)] }) small) = false ∧
    irq (stateAfter (step { smallValid with ie := true, inputs := [.bus (writeFrame 0x005#11 0#32)] }) small) = false ∧
    irq (stateAfter (step { smallValid with ie := true, inputs := [.rst] }) small) = false := by decide

/-- Two transactions to come, one of them before the completion step; and none. -/
theorem witness_CommandCompletesAfterItsLatency :
    (inFlight .encrypt 1 smallValid).status.busy = true ∧ (inFlight .encrypt 1 smallValid).phase = .busy .encrypt ∧
    (∀ x ∈ ([readId, .rst] : List Input).take 1, x ≠ .rst) ∧ (∀ x ∈ ([] : List Input).take 1, x ≠ .rst) := by decide

theorem witness_DecryptAfterEncryptRestoresBlock :
    smallValid.Inv ∧ smallValid.status.busy = false ∧ smallValid.status.valid = true ∧
    ∀ x, inverseTable smallValid (forwardTable smallValid x) = x :=
  ⟨witness_smallValid_inv, rfl, rfl, by decide +kernel⟩

/-- ENCRYPT completes; a read of KEY[0] shows the key; a read of BLOCK[0] while BUSY = 1; an acceptance; EXPAND in flight, not yet
due. -/
theorem witness_KeyReachesOnlyExpandAndKeyReads :
    ((inFlight .encrypt 0 smallValid).phase ≠ .busy .expand ∧
      step (inFlight .encrypt 0 smallValid) = .next (complete .encrypt (inFlight .encrypt 0 smallValid)) ∧
      step { inFlight .encrypt 0 smallValid with key := [7#32], rdata := 9#32 } =
        .next (complete .encrypt { inFlight .encrypt 0 smallValid with key := [7#32], rdata := 9#32 })) ∧
    (step { small with inputs := [.bus (busFrame false 0x010#11 0#32)] } = .next { small with rdata := 0x00010203#32 } ∧
      step { small with inputs := [.bus (busFrame false 0x010#11 0#32)], key := [7#32] } =
        .next { small with rdata := 7#32, key := [7#32] }) ∧
    ((inFlight .encrypt 1 smallValid).status.busy = true ∧
      VolatileOffset (inFlight .encrypt 1 smallValid) (4 * (0x020#11).toNat)) ∧
    (small.status.busy = false ∧
      (stateAfter (step { small with inputs := [.bus (writeFrame 0x003#11 0#32)] }) small).status.busy = true) ∧
    ((inFlight .expand 1 small).phase = .busy .expand ∧ 0 < (inFlight .expand 1 small).wait ∧ [readId] ≠ []) := by
  refine ⟨⟨by decide, rfl, rfl⟩, ⟨rfl, rfl⟩, ⟨rfl, ?_⟩, by decide, by decide⟩
  unfold VolatileOffset
  decide

/-- Without a Cipher State the words of SCHED may be any. -/
theorem witness_StaleScheduleIsUnobservable :
    (inFlight .expand 0 small).Inv ∧
    SameButStaleSchedule (inFlight .expand 0 small) { inFlight .expand 0 small with sched := [3#32, 4#32] } ∧
    step (inFlight .expand 0 small) = .next (complete .expand (inFlight .expand 0 small)) ∧
    step { inFlight .expand 0 small with sched := [3#32, 4#32] } =
      .next (complete .expand { inFlight .expand 0 small with sched := [3#32, 4#32] }) :=
  ⟨witness_expanding_inv, ⟨rfl, by decide, fun h => by cases h⟩, rfl, rfl⟩

/-- The nonzero byte 0x01, and 0x53, whose inverse is 0xCA (T20). -/
theorem witness_MultiplyIsFieldMultiplication :
    (0x01#8 : Byte) ≠ 0x00#8 ∧ (0x53#8 : Byte) ≠ 0x00#8 ∧ multiply 0x53#8 0xCA#8 = 0x01#8 := by decide

/-- 0 has the inverse 0 of R30, and 0x53 has 0xCA (T20). -/
theorem witness_SboxIsAffineMapOfInverse :
    ((0x00#8 = 0#8 ∧ 0x00#8 = 0#8) ∨ multiply 0x00#8 0x00#8 = 0x01#8) ∧
    ((0x53#8 = 0#8 ∧ 0xCA#8 = 0#8) ∨ multiply 0x53#8 0xCA#8 = 0x01#8) := by decide

/-- The first and the last lane; the standard tables. -/
theorem witness_SubstituteWordIsLanewise : 0 < 4 ∧ 3 < 4 ∧ ∀ x, invSbox (sbox x) = x := by decide +kernel

/-- The first and the last lane. -/
theorem witness_RotWordRotatesLanesLeft : 0 < 4 ∧ 3 < 4 := by decide

theorem witness_RoundConstantsFollowXtime : 1 ≤ 1 := by decide

/-- The standard configuration, with an index of each clause, and NK = NB*(NR+1) = 4 (T13, second case). -/
theorem witness_ExpansionFollowsRecurrence :
    (1 ≤ Cfg.reset.NK ∧ Cfg.reset.NK ≤ Cfg.reset.NB * (Cfg.reset.NR + 1) ∧ Cfg.reset.NK ≤ (List.replicate 8 0#32).length) ∧
    (3 < Cfg.reset.NK ∧ Cfg.reset.NK ≤ 43 ∧ 43 < Cfg.reset.NB * (Cfg.reset.NR + 1)) ∧
    1 ≤ (cfgOfWord 0x00030104#32).NK ∧
    (cfgOfWord 0x00030104#32).NK = (cfgOfWord 0x00030104#32).NB * ((cfgOfWord 0x00030104#32).NR + 1) := by decide

/-- Row 3 and the last of three columns. -/
theorem witness_ShiftRowsMovesCells : 3 < 4 ∧ 2 < [1#32, 2#32, 3#32].length := by decide

/-- Row 3 and the first of three columns. -/
theorem witness_InvShiftRowsUndoesShiftRows : 3 < 4 ∧ 0 < [1#32, 2#32, 3#32].length := by decide

theorem witness_MixColumnsIsMatrixProduct : 2 < [1#32, 2#32, 3#32].length := by decide

theorem witness_InvMixColumnsUndoesMixColumns : 2 < [1#32, 2#32, 3#32].length := by decide

/-- The last of three columns; the shortest loop (none) and the longest. -/
theorem witness_CipherRunsRoundsInOrder : 2 < [1#32, 2#32, 3#32].length ∧ 1 ≤ 1 ∧ 1 ≤ 31 := by decide

/-- The shortest loop (none) and the longest. -/
theorem witness_InvCipherRunsRoundsInReverse : 1 ≤ 1 ∧ 1 ≤ 31 := by decide

/-- Tables that are no standard tables: IT(FT(x)) = x for the exchange of bit 0. -/
theorem witness_InvCipherUndoesCipher :
    (∀ x : Byte, (fun y : Byte => y ^^^ 1#8) ((fun y : Byte => y ^^^ 1#8) x) = x) ∧ 1 ≤ 1 ∧ [0x00112233#32].length = 1 := by
  decide +kernel

/-- The standard tables. -/
theorem witness_CipherUndoesInvCipher : (∀ x, sbox (invSbox x) = x) ∧ 1 ≤ 10 ∧ [0x00112233#32].length = 1 := by decide +kernel

end Sys2Proof.Tests
end

section
/-! PROOFS. The bus transactions on CFG and STATUS: what an access that is not dropped does (R42, R43), the bits of the two
words (R18, R22), and the obligations about a write to either register (R19, R23). -/

namespace Sys2Proof.Machine

/-! ## Accesses that are not dropped -/

@[simp] theorem target_cfg (p : Params) : target p 0x002#11 = .cfg := rfl
@[simp] theorem target_status (p : Params) : target p 0x004#11 = .status := rfl

/-- A write while BUSY = 0, to a target that the lock does not hold, reaches its target (R43). -/
theorem exec_busWr_of_accessible {a : BitVec 11} {tg : Target} {s : State} (ht : target s.params a = tg) (v : Word)
    (hb : s.status.busy = false) (hl : tg.locked = true → s.status.valid = false) :
    exec (.busWr a v) s = .next (writeTarget tg v s) := by
  subst ht
  have hw : busWrite a v s = writeTarget (target s.params a) v s := by
    rcases busWrite_cases a v s with ⟨h, -⟩ | ⟨-, hv, h, -⟩ | ⟨-, -, h⟩
    · simp [hb] at h
    · simp [hl h] at hv
    · exact h
  exact congrArg Host.Outcome.next hw

/-- A read of a target that is never free returns its current value, BUSY = 1 or not (R42). -/
theorem exec_busRd_of_not_volatile {a : BitVec 11} {tg : Target} {s : State} (ht : target s.params a = tg) (e : Word)
    (hv : tg.volatile = false) : exec (.busRd a e) s = .next (setRdata (readTarget s tg) s) := by
  subst ht
  have hr : busRead a s = setRdata (readTarget s (target s.params a)) s := by
    rcases busRead_cases a s with ⟨-, h, -⟩ | ⟨-, h⟩
    · simp [hv] at h
    · exact h
  exact congrArg Host.Outcome.next hr

/-! ## The bits of the two words -/

/-- The bits of the CFG word, field by field (R18). -/
theorem cfgWord_getLsbD (c : Cfg) (i : Nat) :
    (cfgWord c).getLsbD i =
      if i < 4 then c.nk.getLsbD i else if i < 8 then false
      else if i < 12 then c.nb.getLsbD (i - 8) else if i < 16 then false
      else if i < 21 then c.nr.getLsbD (i - 16) else if i < 24 then false
      else if i = 24 then c.fsel else if i = 25 then c.isel else false := by
  unfold cfgWord
  simp only [BitVec.getLsbD_append, BitVec.getLsbD_zero, BitVec.getLsbD_ofBool, Nat.sub_sub]
  rcases lt_or_ge i 16 with h | h
  · grind
  · grind

/-- The bits of the STATUS word, field by field (R22). -/
theorem statusWord_getLsbD (st : Status) (i : Nat) :
    (statusWord st).getLsbD i =
      if i = 0 then st.busy else if i = 1 then st.valid else if i = 2 then st.done
      else if i = 3 then st.busyErr else if i = 4 then st.lockErr else if i < 8 then false
      else if i < 12 then st.err.getLsbD (i - 8) else false := by
  unfold statusWord
  simp only [BitVec.getLsbD_append, BitVec.getLsbD_zero, BitVec.getLsbD_ofBool, Nat.sub_sub]
  rcases lt_or_ge i 8 with h | h
  · interval_cases i <;> simp
  · obtain ⟨j, rfl⟩ := Nat.exists_eq_add_of_le' h
    simp [show j + 8 < 12 ↔ j < 4 by omega]

/-- The mask of CFG's fields has the bits that R18 does not reserve. -/
theorem cfgMask_getLsbD : ∀ i < 32, (0x031F0F0F#32).getLsbD i =
    decide (i < 4 ∨ (8 ≤ i ∧ i < 12) ∨ (16 ≤ i ∧ i < 21) ∨ i = 24 ∨ i = 25) := by decide

/-- The mask of STATUS's W1C bits has DONE, BUSYERR and LOCKERR (R23). -/
theorem w1cMask_getLsbD : ∀ i < 32, (0x0000001C#32).getLsbD i = decide (i = 2 ∨ i = 3 ∨ i = 4) := by decide

/-- The word of the fields that a CFG write stores is the written word without its reserved bits (R16, R19). -/
theorem cfgWord_cfgOfWord (v : Word) : cfgWord (cfgOfWord v) = v &&& 0x031F0F0F#32 := by
  refine BitVec.eq_of_getLsbD_eq fun i hi => ?_
  rw [cfgWord_getLsbD, BitVec.getLsbD_and, cfgMask_getLsbD i hi]
  simp only [cfgOfWord, BitVec.getLsbD_extractLsb']
  grind

/-- A STATUS write clears, in the STATUS word, the W1C bits written as 1 (R23). -/
theorem statusWord_statusW1C (v : Word) (st : Status) :
    statusWord (statusW1C v st) = statusWord st &&& ~~~(v &&& 0x0000001C#32) := by
  refine BitVec.eq_of_getLsbD_eq fun i hi => ?_
  simp only [BitVec.getLsbD_and, BitVec.getLsbD_not, w1cMask_getLsbD i hi, statusWord_getLsbD, statusW1C_busy,
    statusW1C_valid, statusW1C_done, statusW1C_busyErr, statusW1C_lockErr, statusW1C_err]
  grind

/-! ## The obligations -/

/-- Settles O28: with BUSY = 0 and VALID = 0 the write stores `cfgOfWord v`, and CFG, never a free read, gives its word. -/
theorem configHoldsWrittenFields : Obligations.ConfigHoldsWrittenFields := by
  intro s v hb hv
  have hwrite : exec (.busWr 0x002#11 v) s = .next (writeCfg v s) :=
    exec_busWr_of_accessible (target_cfg _) v hb fun _ => hv
  have hread (e : Word) : exec (.busRd 0x002#11 e) (writeCfg v s) =
      .next (setRdata (cfgWord (cfgOfWord v)) (writeCfg v s)) :=
    exec_busRd_of_not_volatile (target_cfg _) e rfl
  refine ⟨writeCfg v s, hwrite, rfl, rfl, rfl, rfl, rfl, rfl, fun e => ?_⟩
  rw [hread, cfgWord_cfgOfWord, setRdata]

/-- Settles O29: STATUS is not locked, so with BUSY = 0 the write stores `statusW1C v s.status`. -/
theorem statusWriteClearsWrittenBits : Obligations.StatusWriteClearsWrittenBits := by
  intro s v hb
  have hwrite : exec (.busWr 0x004#11 v) s = .next (writeStatus v s) :=
    exec_busWr_of_accessible (target_status _) v hb nofun
  exact ⟨writeStatus v s, hwrite, rfl, statusWord_statusW1C v s.status⟩

end Sys2Proof.Machine
end

section
/-! PROOFS. Host writes of the register window: the register map by byte offset (R41), and the obligations about the order in
which a write is handled (R43, R48, R50) and about the words that KEY, BLOCK and the table RAMs store (R51, R53). -/

namespace Sys2Proof.Machine

open Sys2Proof.Statements

/-! ## The register map by byte offset -/

section RegisterMap

variable {p : Params} {off : Nat}

/-- A word address is a word-aligned byte offset (R40). -/
theorem four_dvd_byteOffset (a : BitVec 11) : 4 ∣ byteOffset a := ⟨_, rfl⟩

/-- The index of a table entry, taken from its offset, gives the offset back (R41, R53). -/
theorem tableOffset_ofNat {base : Nat} (h4 : 4 ∣ base ∧ 4 ∣ off) (h : base ≤ off ∧ off < base + 0x400) :
    tableOffset base (BitVec.ofNat 8 ((off - base) / 4)) = off := by
  simp only [tableOffset, BitVec.toNat_ofNat]
  omega

/-- An offset of the KEY array names its word. -/
theorem offsetTarget_key (hp : p.Legal) (h : 0x040 ≤ off ∧ off < 0x040 + 4 * p.nkMax) :
    offsetTarget p off = .key ((off - 0x040) / 4) := by
  have := hp.nk
  rw [offsetTarget, if_neg (by omega), if_pos (by omega), keyTarget, if_pos (by omega)]

/-- An offset of the BLOCK array names its word. -/
theorem offsetTarget_block (hp : p.Legal) (h : 0x080 ≤ off ∧ off < 0x080 + 4 * p.nbMax) :
    offsetTarget p off = .block ((off - 0x080) / 4) := by
  have := hp.nb
  rw [offsetTarget, if_neg (by omega), if_neg (by omega), if_pos (by omega), blockTarget, if_pos (by omega)]

/-- An offset of the table RAMs names the entry of FTAB or ITAB that stands there. -/
theorem offsetTarget_table (h4 : 4 ∣ off) (h : 0x400 ≤ off ∧ off < 0xC00) :
    ∃ x, (offsetTarget p off = .ftab x ∧ tableOffset ftabBase x = off) ∨
      (offsetTarget p off = .itab x ∧ tableOffset itabBase x = off) := by
  unfold offsetTarget
  iterate 4 rw [if_neg (by omega)]
  by_cases hf : off < 0x800
  · exact ⟨_, .inl ⟨if_pos hf, tableOffset_ofNat ⟨by decide, h4⟩ ⟨h.1, hf⟩⟩⟩
  · rw [if_neg hf, if_pos h.2]
    exact ⟨_, .inr ⟨rfl, tableOffset_ofNat ⟨by decide, h4⟩ ⟨not_lt.1 hf, h.2⟩⟩⟩

/-- Behind the control registers, an offset outside KEY, BLOCK and the table RAMs is unmapped or a word of SCHED. -/
theorem offsetTarget_of_no_array (hc : ¬off < 0x040) (hk : ¬(0x040 ≤ off ∧ off < 0x040 + 4 * p.nkMax))
    (hb : ¬(0x080 ≤ off ∧ off < 0x080 + 4 * p.nbMax)) (ht : ¬(0x400 ≤ off ∧ off < 0xC00)) :
    offsetTarget p off = .unmapped ∨ ∃ k, offsetTarget p off = .sched k := by
  rw [offsetTarget, if_neg hc]
  split_ifs
  · exact .inl (if_neg (by omega))
  · exact .inl (if_neg (by omega))
  · exact .inl rfl
  · omega
  · omega
  · exact .inl rfl
  · unfold schedTarget
    split
    · exact .inr ⟨_, rfl⟩
    · exact .inl rfl

/-! The lock names CFG, FTAB and ITAB (R43, R50). -/

theorem controlTarget_locked : (controlTarget off).locked = true ↔ off = 0x008 := by
  unfold controlTarget
  split <;> simp_all [Target.locked]

@[simp] theorem keyTarget_locked (k : Nat) : (keyTarget p k).locked = false := by
  unfold keyTarget
  split <;> rfl

@[simp] theorem blockTarget_locked (k : Nat) : (blockTarget p k).locked = false := by
  unfold blockTarget
  split <;> rfl

@[simp] theorem schedTarget_locked (k : Nat) : (schedTarget p k).locked = false := by
  unfold schedTarget
  split <;> rfl

/-- The targets of the lock are the locked offsets, slot by slot of the map. -/
theorem offsetTarget_locked : (offsetTarget p off).locked = true ↔ LockedOffset off := by
  unfold offsetTarget LockedOffset
  split_ifs
  · exact controlTarget_locked.trans (by omega)
  · exact iff_of_false (by simp) (by omega)
  · exact iff_of_false (by simp) (by omega)
  · exact iff_of_false nofun (by omega)
  · exact iff_of_true rfl (by omega)
  · exact iff_of_true rfl (by omega)
  · exact iff_of_false nofun (by omega)
  · exact iff_of_false (by simp) (by omega)

end RegisterMap

/-! ## What a write to the window stores -/

section WindowWrite

variable {s : State} {off : Nat} {d : Word}

/-! A word stored in an array is the one found there. -/

theorem readTarget_writeKey {k : Nat} (h : k < s.key.length) : readTarget (writeKey k d s) (.key k) = d := by
  simp [readTarget, List.getD, h]

theorem readTarget_writeBlock {k : Nat} (h : k < s.block.length) : readTarget (writeBlock k d s) (.block k) = d := by
  simp [readTarget, List.getD, h]

/-- A STATUS write in the words of R23: a W1C bit becomes 0 where the written bit is 1, and stays as it was where it is 0. -/
theorem statusW1C_eq (st : Status) : statusW1C d st = { st with
    done := if d.getLsbD 2 then false else st.done
    busyErr := if d.getLsbD 3 then false else st.busyErr
    lockErr := if d.getLsbD 4 then false else st.lockErr } := by
  have clear (b c : Bool) : (b && !c) = if c then false else b := by cases c <;> simp
  simp only [statusW1C, clear]

/-- A write to a control register other than CMD. -/
theorem writeTarget_controlTarget (h : off < 0x040) (hcmd : off ≠ 0x00C) :
    writeTarget (controlTarget off) d s = windowWrite s off d := by
  unfold controlTarget
  split
  · rfl
  · rfl
  · rfl
  · exact absurd rfl hcmd
  · exact congrArg (fun st => { s with status := st }) (statusW1C_eq s.status)
  · rfl
  · rfl
  · rfl
  · unfold windowWrite
    iterate 7 rw [if_neg (by omega)]
    rfl

/-! Each array's offsets are none of the cases before it in the table, since legal parameters keep an array in its slot. -/

theorem windowWrite_key (h : 0x040 ≤ off ∧ off < 0x040 + 4 * s.params.nkMax) :
    windowWrite s off d = writeKey ((off - 0x040) / 4) d s := by
  unfold windowWrite
  iterate 4 rw [if_neg (by omega)]
  exact if_pos h

theorem windowWrite_block (hp : s.params.Legal) (h : 0x080 ≤ off ∧ off < 0x080 + 4 * s.params.nbMax) :
    windowWrite s off d = writeBlock ((off - 0x080) / 4) d s := by
  have := hp.nk
  unfold windowWrite
  iterate 5 rw [if_neg (by omega)]
  exact if_pos h

theorem windowWrite_table (hp : s.params.Legal) (h : 0x400 ≤ off ∧ off < 0xC00) :
    windowWrite s off d = { s with tables := Memory.write s.unlisted s.tables off (d.extractLsb' 0 8) } := by
  have := hp.nk
  have := hp.nb
  unfold windowWrite
  iterate 6 rw [if_neg (by omega)]
  exact if_pos h

/-- A write to a table entry stores the low byte of the word at its offset (R53). -/
theorem writeTarget_table (h4 : 4 ∣ off) (h : 0x400 ≤ off ∧ off < 0xC00) :
    writeTarget (offsetTarget s.params off) d s =
      { s with tables := Memory.write s.unlisted s.tables off (d.extractLsb' 0 8) } := by
  obtain ⟨x, ⟨e, hx⟩ | ⟨e, hx⟩⟩ := offsetTarget_table (p := s.params) h4 h <;> rw [e, ← hx] <;> rfl

/-- A write anywhere but at CMD stores what the map's table says (R41, R43). -/
theorem writeTarget_offsetTarget (hp : s.params.Legal) (h4 : 4 ∣ off) (hcmd : off ≠ 0x00C) :
    writeTarget (offsetTarget s.params off) d s = windowWrite s off d := by
  by_cases hc : off < 0x040
  · rw [offsetTarget, if_pos hc, writeTarget_controlTarget hc hcmd]
  by_cases hk : 0x040 ≤ off ∧ off < 0x040 + 4 * s.params.nkMax
  · rw [offsetTarget_key hp hk, windowWrite_key hk, writeTarget]
  by_cases hb : 0x080 ≤ off ∧ off < 0x080 + 4 * s.params.nbMax
  · rw [offsetTarget_block hp hb, windowWrite_block hp hb, writeTarget]
  by_cases ht : 0x400 ≤ off ∧ off < 0xC00
  · rw [writeTarget_table h4 ht, windowWrite_table hp ht]
  · have hw : windowWrite s off d = s := by
      unfold windowWrite
      iterate 4 rw [if_neg (by omega)]
      rw [if_neg hk, if_neg hb, if_neg ht]
    rcases offsetTarget_of_no_array hc hk hb ht with e | ⟨k, e⟩ <;> rw [e, hw, writeTarget]

end WindowWrite

/-! ## Instructions as host writes -/

section Exec

variable {s : State} {a : BitVec 11}

/-- Every instruction but a read is a host write: dropped while BUSY = 1 (R43, R48). -/
theorem exec_eq_whenNotBusy {i : Instr} (h : ∀ a d, i ≠ .busRd a d) (s : State) :
    ∃ k, exec i s = .next (whenNotBusy k s) := by
  cases i with
  | nop => exact ⟨issueNop, rfl⟩
  | expand => exact ⟨issueExpand, rfl⟩
  | encrypt => exact ⟨issueEncrypt, rfl⟩
  | decrypt => exact ⟨issueDecrypt, rfl⟩
  | release => exact ⟨issueRelease, rfl⟩
  | gfmul => exact ⟨issueGfmul, rfl⟩
  | subwF => exact ⟨issueSubwF, rfl⟩
  | subwI => exact ⟨issueSubwI, rfl⟩
  | illegal w => exact ⟨issueIllegal w, rfl⟩
  | busRd a d => exact absurd rfl (h a d)
  | busWr a d => exact ⟨writeUnlocked a d, rfl⟩

/-- A command is the issue of its code, dropped while BUSY = 1 (R113). -/
theorem exec_instrOfOp (op : Opcode) (s : State) : exec (instrOfOp op) s = .next (whenNotBusy (issueOp op) s) := by
  cases op <;> rfl

/-- The command that a word names is the issue of the word, dropped while BUSY = 1 (R67, R113). -/
theorem exec_decode_cmd (v : Word) (s : State) : exec (decode (.cmd v)) s = .next (whenNotBusy (issueCommand v) s) := by
  simp only [decode, decodeCmd, whenNotBusy, issueCommand]
  cases decodeOp v with
  | some op => exact exec_instrOfOp op s
  | none => rfl

/-- A read while BUSY = 0 returns the target's current value (R42). -/
theorem exec_busRd_of_idle {tg : Target} (ht : target s.params a = tg) (e : Word) (hb : s.status.busy = false) :
    exec (.busRd a e) s = .next (setRdata (readTarget s tg) s) := by
  subst ht
  rcases busRead_cases a s with ⟨h, -⟩ | ⟨-, h⟩
  · simp [hb] at h
  · exact congrArg Host.Outcome.next h

/-- A write while BUSY = 0 that the lock does not hold reaches its target (R43). -/
theorem exec_busWr_of_not_lockedOffset (d : Word) (hb : s.status.busy = false)
    (hl : ¬(s.status.valid = true ∧ LockedOffset (byteOffset a))) :
    exec (.busWr a d) s = .next (writeTarget (offsetTarget s.params (byteOffset a)) d s) :=
  exec_busWr_of_accessible rfl d hb fun h => by
    simpa [offsetTarget_locked.1 h] using hl

/-- A read of a table entry returns the byte at its offset, BUSY = 1 or not (R53). -/
theorem exec_busRd_table (e : Word) (h : 0x400 ≤ byteOffset a ∧ byteOffset a < 0xC00) :
    exec (.busRd a e) s = .next (setRdata ((Memory.read s.unlisted s.tables (byteOffset a)).setWidth 32) s) := by
  obtain ⟨x, ⟨ht, hx⟩ | ⟨ht, hx⟩⟩ := offsetTarget_table (p := s.params) (four_dvd_byteOffset a) h <;>
    rw [exec_busRd_of_not_volatile ht e rfl, ← hx] <;> rfl

end Exec

/-! ## The obligations -/

/-- Settles O13: every instruction but a read is a host write, which BUSY = 1 drops. -/
theorem busyDropsEveryHostWrite : Obligations.BusyDropsEveryHostWrite := by
  intro s i hb hi
  obtain ⟨k, hk⟩ := exec_eq_whenNotBusy hi s
  rw [hk, whenNotBusy_of_busy k hb]
  rfl

/-- Settles O14: with BUSY = 0 and VALID = 1, a write to a locked offset is the lock's case of `busWrite`. -/
theorem lockDropsConfigAndTableWrites : Obligations.LockDropsConfigAndTableWrites := by
  intro s a d hb hv hl
  have hlocked : (target s.params a).locked = true := offsetTarget_locked.2 hl
  rcases busWrite_cases a d s with ⟨h, -⟩ | ⟨-, -, -, h⟩ | ⟨-, h, -⟩
  · simp [hb] at h
  · exact congrArg Host.Outcome.next h
  · simp [h hlocked] at hv

/-- Settles O27: the BUSY drop, the lock, the command at CMD, and elsewhere the map's store, each by its lemma. -/
theorem writeIsHandledInOrder : Obligations.WriteIsHandledInOrder := by
  intro s a d hp
  refine ⟨fun hb => busyDropsEveryHostWrite s _ hb nofun, lockDropsConfigAndTableWrites s a d,
    fun hb hl => ⟨fun hcmd => ?_, fun hcmd => ?_⟩⟩
  · have ht : target s.params a = .cmd := by rw [target, byteOffset, hcmd]; rfl
    rw [exec_busWr_of_accessible ht d hb nofun, exec_decode_cmd, whenNotBusy_of_idle _ hb, writeTarget]
  · rw [exec_busWr_of_not_lockedOffset d hb hl, writeTarget_offsetTarget hp (four_dvd_byteOffset a) hcmd]
    rfl

/-- Settles O30: the arrays of the invariant's lengths hold the word written, and BUSY = 0 leaves its read no free value. -/
theorem keyAndBlockWordsReadBack : Obligations.KeyAndBlockWordsReadBack := by
  intro s a d e hi hb h
  rcases h with h | h
  · have ht : target s.params a = .key ((4 * a.toNat - 0x040) / 4) := offsetTarget_key hi.params h
    refine ⟨_, exec_busWr_of_accessible ht d hb nofun, ?_, rfl⟩
    have hk : (4 * a.toNat - 0x040) / 4 < s.key.length := by rw [hi.keyLen]; omega
    exact (exec_busRd_of_idle (s := writeKey _ d s) ht e hb).trans (by rw [readTarget_writeKey hk]; rfl)
  · have ht : target s.params a = .block ((4 * a.toNat - 0x080) / 4) := offsetTarget_block hi.params h
    refine ⟨_, exec_busWr_of_accessible ht d hb nofun, ?_, rfl⟩
    have hk : (4 * a.toNat - 0x080) / 4 < s.block.length := by rw [hi.blockLen]; omega
    exact (exec_busRd_of_idle (s := writeBlock _ d s) ht e hb).trans (by rw [readTarget_writeBlock hk]; rfl)

/-- Settles O31: a table entry is never a free read, and its store is a write of the byte memory at its offset. -/
theorem tableEntryReadsBack : Obligations.TableEntryReadsBack := by
  intro s a d e hlo hhi
  refine ⟨exec_busRd_table e ⟨hlo, hhi⟩, fun hb hv => ?_⟩
  have hwrite := exec_busWr_of_not_lockedOffset (a := a) d hb (by simp [hv])
  rw [writeTarget_table (four_dvd_byteOffset a) ⟨hlo, hhi⟩] at hwrite
  exact ⟨_, hwrite, rfl, Memory.read_write_same _ _ _ _, fun off hne => Memory.read_write_other _ _ _ _ _ hne⟩

end Sys2Proof.Machine
end

section
/-! PROOFS. The two formats by number (R60 to R64, R67), a command as the bus write of its word (R69), and the rejection of an
illegal word (R63, R64). -/

namespace Sys2Proof.Machine

open Sys2Proof.Statements

/-! ## CMD words -/

/-- OP is the word modulo 16 (R61). -/
theorem op_toNat (v : Word) : (v.extractLsb' 0 4).toNat = v.toNat % 16 := by simp

/-- From 8 on a CMD word names no command: its OP is none of the eight, or a bit of RSV is set (R63, R64). -/
theorem decodeOp_of_eight_le {v : Word} (h : 8 ≤ v.toNat) : decodeOp v = none := by
  unfold decodeOp
  rw [reservedBitsSet_eq, op_toNat]
  split_ifs with hrsv
  · rfl
  · have hlt : v.toNat < 16 := by simpa using hrsv
    split
    case h_9 => rfl
    all_goals omega

/-- From 8 on a CMD word is ILLEGAL (R67). -/
theorem decode_cmd_of_eight_le {v : Word} (h : 8 ≤ v.toNat) : decode (.cmd v) = .illegal v := by
  simp [decode, decodeCmd, decodeOp_of_eight_le h]

/-- A word with a bit of RSV set or with OP from 8 is one from 8 on (R63, R64). -/
theorem eight_le_of_rsv_or_op {v : Word} (h : v.extractLsb' 4 28 ≠ 0#28 ∨ 8 ≤ (v.extractLsb' 0 4).toNat) :
    8 ≤ v.toNat := by
  rcases h with hrsv | hop
  · have hset : reservedBitsSet v = true := bne_iff_ne.2 hrsv
    rw [reservedBitsSet_eq, decide_eq_true_iff] at hset
    omega
  · rw [op_toNat] at hop
    omega

/-! ## Bus patterns -/

/-- W, the top bit of a bus pattern, is 0 exactly when the pattern has no 2^43 (R60). -/
theorem getLsbD_write_eq_false_iff (f : BitVec 44) : f.getLsbD 43 = false ↔ f.toNat / 2 ^ 43 = 0 := by
  have hmsb : f.getLsbD 43 = decide (2 ^ 43 ≤ f.toNat) := (BitVec.msb_eq_getLsbD_last f).symm.trans (BitVec.msb_eq_decide f)
  rw [hmsb, decide_eq_false_iff_not]
  omega

/-! ## The write to CMD -/

@[simp] theorem target_cmd (p : Params) : target p 0x003#11 = .cmd := rfl

/-- The lock does not hold CMD: a write to it that is not dropped issues its word (R43). -/
theorem writeUnlocked_cmd (v : Word) : writeUnlocked 0x003#11 v = issueCommand v := by
  funext s
  rw [writeUnlocked, target_cmd, if_neg (by simp [Target.locked]), writeTarget]

/-- A bus write to CMD does what the command that its word names does, dropped or not (R69). -/
theorem exec_busWr_cmd (v : Word) (s : State) : exec (.busWr 0x003#11 v) s = exec (decode (.cmd v)) s := by
  calc exec (.busWr 0x003#11 v) s
    _ = .next (whenNotBusy (writeUnlocked 0x003#11 v) s) := rfl
    _ = .next (whenNotBusy (issueCommand v) s) := by rw [writeUnlocked_cmd]
    _ = exec (decode (.cmd v)) s := (exec_decode_cmd v s).symm

/-- While BUSY = 0 an illegal word is rejected with ILLEGAL_CMD (R63, R64). -/
theorem exec_illegal_of_idle {s : State} (w : Word) (hb : s.status.busy = false) :
    exec (.illegal w) s = .next (rejectedWith 0x1#4 s) :=
  congrArg Host.Outcome.next (whenNotBusy_of_idle (issueIllegal w) hb)

/-! ## The obligations -/

/-- Settles O3: each CMD word below 8 is evaluated, and from 8 on all are ILLEGAL; a bus pattern's fields are its parts
by number. -/
theorem everyWordDecodesByTheOpcodeMap : Obligations.EveryWordDecodesByTheOpcodeMap := by
  refine ⟨fun v => ?_, fun f => ⟨f.extractLsb' 32 11, f.extractLsb' 0 32, ?_, by simp, ?_⟩⟩
  · rcases lt_or_ge v.toNat 8 with h | h
    · obtain ⟨n, hn, rfl⟩ : ∃ n < 8, v = BitVec.ofNat 32 n := ⟨v.toNat, h, by simp⟩
      interval_cases n <;> rfl
    · rw [decode_cmd_of_eight_le h]
      iterate 8 rw [if_neg (by rintro rfl; exact absurd h (by decide))]
  · rw [BitVec.extractLsb'_toNat, Nat.shiftRight_eq_div_pow]
  · simp only [decode, decodeBus, ← getLsbD_write_eq_false_iff]
    cases f.getLsbD 43 <;> rfl

/-- Settles O7: the words are the encoder's table, and CMD's write is `exec_busWr_cmd`. -/
theorem commandIsOneWriteToCmd : Obligations.CommandIsOneWriteToCmd :=
  ⟨rfl, rfl, rfl, rfl, rfl, rfl, rfl, rfl, fun s v => exec_busWr_cmd v s⟩

/-- Settles O15: a word with a bit of RSV set or OP from 8 decodes to ILLEGAL, so its write to CMD is the illegal command. -/
theorem illegalCommandIsRejected : Obligations.IllegalCommandIsRejected := by
  intro s w hb
  refine ⟨exec_illegal_of_idle w hb, fun h => ?_⟩
  rw [exec_busWr_cmd, decode_cmd_of_eight_le (eight_le_of_rsv_or_op h)]
  exact exec_illegal_of_idle w hb

end Sys2Proof.Machine
end

section
/-! PROOFS. The key schedule expander: RotWord as a rotation of lanes (R85), the round constants (R86), and the words of the
expansion, first the raw key, then the recurrence (R87 to R89). -/

namespace Sys2Proof.Machine

/-! ## RotWord and Rcon by bits -/

/-- A byte in lane 0 and zero in lanes 1 to 3 is the byte shifted to the top (R86). -/
theorem ofLanes_zero_zero_zero (b : Byte) : ofLanes b 0#8 0#8 0#8 = b.setWidth 32 <<< 24 := by
  refine BitVec.eq_of_getLsbD_eq fun i hi => ?_
  rw [ofLanes_getLsbD, BitVec.getLsbD_shiftLeft, BitVec.getLsbD_setWidth]
  split_ifs with h1 h2 h3
  · simp [show i < 24 by omega]
  · simp [show i < 24 by omega]
  · simp [h3]
  · simp [h3, hi, show i - 24 < 32 by omega]

/-- RotWord is the rotation of the whole word by eight bits (R85). -/
theorem rotWord_eq_shift (w : Word) : rotWord w = (w <<< 8) ||| (w >>> 24) := by
  refine BitVec.eq_of_getLsbD_eq fun i hi => ?_
  rw [rotWord, ofLanes_getLsbD, BitVec.getLsbD_or, BitVec.getLsbD_shiftLeft, BitVec.getLsbD_ushiftRight]
  simp only [lane, BitVec.getLsbD_extractLsb']
  rcases lt_or_ge i 8 with h | h
  · simp [h]
  have hout : w.getLsbD (24 + i) = false := BitVec.getLsbD_of_ge w _ (by omega)
  rw [if_neg h.not_gt, hout]
  split_ifs with h2 h3
  · simp [hi, h, show i - 8 < 8 by omega]
  · simp [hi, h, show i - 16 < 8 by omega, show 8 + (i - 16) = i - 8 by omega]
  · simp [hi, h, show i - 24 < 8 by omega, show 16 + (i - 24) = i - 8 by omega]

/-! ## The expansion's words -/

section Expansion

variable {ft : Byte → Byte} {nk n i : Nat} {ws : List Word}

/-- The loop keeps the words it starts from (R87). -/
theorem expandLoop_getD_of_lt (h : i < ws.length) : (expandLoop ft nk n ws).getD i 0#32 = ws.getD i 0#32 := by
  have htake := congrArg (·[i]?) (expandLoop_take ft nk n ws)
  simp only [List.getElem?_take_of_lt h] at htake
  rw [List.getD, List.getD, htake]

/-- A word that the loop appends is the recurrence's, read off the finished list, since later turns change no word
before it (R88). -/
theorem expandLoop_getD_of_le (hpos : 1 ≤ nk) (hnk : nk ≤ ws.length) (hi : ws.length ≤ i) (hn : i < ws.length + n) :
    (expandLoop ft nk n ws).getD i 0#32 =
      (expandLoop ft nk n ws).getD (i - nk) 0#32 ^^^ schedTemp ft nk i ((expandLoop ft nk n ws).getD (i - 1) 0#32) := by
  induction n generalizing ws with
  | zero => omega
  | succ n ih =>
    have hlen : (ws ++ [schedNext ft nk ws]).length = ws.length + 1 := by simp
    rcases hi.eq_or_lt with rfl | hlt
    · calc (expandLoop ft nk n (ws ++ [schedNext ft nk ws])).getD ws.length 0#32
        _ = (ws ++ [schedNext ft nk ws]).getD ws.length 0#32 := expandLoop_getD_of_lt (by omega)
        _ = schedNext ft nk ws := by simp
        _ = _ := by rw [schedNext, expandLoop_getD_of_lt (by omega), expandLoop_getD_of_lt (by omega)]
    · exact ih (by omega) (by omega) (by omega)

end Expansion

/-! ## The obligations -/

/-- Settles O49: the expansion is the loop started from the raw key, whose words `expandLoop_getD_of_lt` and
`expandLoop_getD_of_le` give. -/
theorem expansionFollowsRecurrence : Obligations.ExpansionFollowsRecurrence := by
  intro key c ft hpos hfit hkey
  have hlen : (key.take c.NK).length = c.NK := List.length_take_of_le hkey
  have hwords : c.NK + (c.words - c.NK) = c.NB * (c.NR + 1) := Nat.add_sub_cancel' hfit
  refine ⟨?_, fun i hi => ?_, fun i hlo hhi => ?_⟩
  · rw [expand, expandLoop_length, hlen, hwords]
  · rw [expand, expandLoop_getD_of_lt (by omega), List.getD, List.getD, List.getElem?_take_of_lt hi]
  · exact expandLoop_getD_of_le hpos hlen.ge (by omega) (by omega)

/-- Settles O47: the rotation bit by bit, and the lanes of `rotWord` one by one. -/
theorem rotWordRotatesLanesLeft : Obligations.RotWordRotatesLanesLeft := by
  intro w
  refine ⟨rotWord_eq_shift w, fun k hk => ?_⟩
  interval_cases k <;> simp [rotWord]

/-- Settles O48: rc from 1 on is `rcAfter`, whose recursion is R86's. -/
theorem roundConstantsFollowXtime : Obligations.RoundConstantsFollowXtime := by
  refine ⟨rfl, fun j hj => ?_, fun j _ => ofLanes_zero_zero_zero (rc j), by decide⟩
  obtain ⟨n, rfl⟩ := Nat.exists_eq_add_of_le' hj
  rfl

end Sys2Proof.Machine
end

section
/-! PROOFS. The forward round engine: the columns and cells of AddRoundKey (R102), ShiftRows (R98) and MixColumns (R100), and
Cipher as its rounds in order (R103). -/

namespace Sys2Proof.Machine

/-! ## The columns and cells of a block operation -/

section Columns

variable {s : List Word} {c : Nat}

/-- Column c of a block that is given column by column. -/
theorem map_range_getD (column : Nat → Word) {n : Nat} (h : c < n) :
    ((List.range n).map column).getD c 0#32 = column c := by
  simp [List.getD, h]

/-- Column c of AddRoundKey is the old column XORed with its schedule word (R102). -/
theorem addRoundKey_getD (sched : List Word) (nb r : Nat) (h : c < s.length) :
    (addRoundKey sched nb r s).getD c 0#32 = s.getD c 0#32 ^^^ sched.getD (r * nb + c) 0#32 :=
  map_range_getD _ h

/-- Column c of ShiftRows gathers one lane from each of the columns c to c + 3, modulo NB (R98). -/
theorem shiftRows_getD (h : c < s.length) :
    (shiftRows s).getD c 0#32 = ofLanes (cell s 0 c) (cell s 1 ((c + 1) % s.length)) (cell s 2 ((c + 2) % s.length))
      (cell s 3 ((c + 3) % s.length)) :=
  map_range_getD _ h

/-- Column c of MixColumns is MixCol of the old column (R100). -/
theorem mixColumns_getD (h : c < s.length) : (mixColumns s).getD c 0#32 = mixCol (s.getD c 0#32) := by
  simp [mixColumns, List.getD, h]

/-- ShiftRows moves cell (r, (c + r) mod NB) to (r, c), row by row (R98). -/
theorem lane_shiftRows {r : Nat} (hr : r < 4) (h : c < s.length) :
    lane ((shiftRows s).getD c 0#32) r = cell s r ((c + r) % s.length) := by
  rw [shiftRows_getD h]
  interval_cases r
  · rw [lane_ofLanes_zero, Nat.add_zero, Nat.mod_eq_of_lt h]
  · exact lane_ofLanes_one ..
  · exact lane_ofLanes_two ..
  · exact lane_ofLanes_three ..

end Columns

/-! ## The forward matrix -/

/-- A coefficient of 1 leaves the lane as it is (R75, R100). -/
theorem one_multiply : ∀ x : Byte, multiply 1#8 x = x := by decide

/-- A row of coefficients times a column given by its lanes (R100, R101). -/
@[simp] theorem dotColumn_ofLanes (k0 k1 k2 k3 a0 a1 a2 a3 : Byte) :
    dotColumn k0 k1 k2 k3 (ofLanes a0 a1 a2 a3) =
      multiply k0 a0 ^^^ multiply k1 a1 ^^^ multiply k2 a2 ^^^ multiply k3 a3 := by
  simp [dotColumn]

/-! ## The rounds -/

/-- The loop of Cipher runs the rounds 1 to n in order (R103 step 2). -/
theorem cipherRounds_eq_foldl (ft : Byte → Byte) (sched : List Word) (nb n : Nat) (s : List Word) :
    cipherRounds ft sched nb n s =
      ((List.range n).map (· + 1)).foldl (fun b round => cipherRound ft sched nb round b) s := by
  induction n with
  | zero => rfl
  | succ n ih => rw [cipherRounds, ih, List.range_succ, List.map_append, List.foldl_append]; rfl

/-! ## The obligations -/

/-- Settles O54: the columns of AddRoundKey, and the loop of Cipher as a fold over its rounds. -/
theorem cipherRunsRoundsInOrder : Obligations.CipherRunsRoundsInOrder := by
  refine ⟨fun sched s r c h => addRoundKey_getD sched s.length r h, fun ft sched nb nr s _ => ?_⟩
  rw [cipher, cipherRounds_eq_foldl]
  rfl

/-- Settles O50: the cells of ShiftRows are those of `lane_shiftRows`. -/
theorem shiftRowsMovesCells : Obligations.ShiftRowsMovesCells :=
  fun s => ⟨shiftRows_length s, fun _ _ hr hc => lane_shiftRows hr hc⟩

/-- Settles O52: the columns of MixColumns, and the product row by row, its coefficients of 1 dropped. -/
theorem mixColumnsIsMatrixProduct : Obligations.MixColumnsIsMatrixProduct := by
  refine ⟨mixColumns_length, fun s c h => mixColumns_getD h, fun a0 a1 a2 a3 => ?_⟩
  simp only [mixCol, dotColumn_ofLanes, one_multiply]

end Sys2Proof.Machine
end

section
/-! PROOFS. The encoder and the decoder undo each other (R60 to R64, R67); which move a step makes, one lemma per move; and the
step that runs the host's next transaction, or the instruction of a table word (R8, R69). -/

namespace Sys2Proof.Machine

open Sys2Proof.Statements

/-! ## The two formats, there and back -/

/-- A bus frame decodes to the write or the read of its fields (R60). -/
@[simp] theorem decode_busFrame_write (a : BitVec 11) (d : Word) : decode (.bus (busFrame true a d)) = .busWr a d := by
  simp only [decode, decodeBus, busFrame_write, busFrame_addr, busFrame_data, if_true]

@[simp] theorem decode_busFrame_read (a : BitVec 11) (d : Word) : decode (.bus (busFrame false a d)) = .busRd a d := by
  simp only [decode, decodeBus, busFrame_write, busFrame_addr, busFrame_data, Bool.false_eq_true, if_false]

/-- A CMD word is one of the eight command codes, or an ILLEGAL one from 8 on (R62 to R64). -/
theorem cmdWord_cases (v : Word) :
    (∃ n < 8, v = BitVec.ofNat 32 n) ∨ (decode (.cmd v) = .illegal v ∧ (Instr.illegal v).wellFormed = true) := by
  rcases lt_or_ge v.toNat 8 with h | h
  · exact .inl ⟨v.toNat, h, by simp⟩
  · exact .inr ⟨decode_cmd_of_eight_le h, by simp [illegal_wellFormed_eq, h]⟩

/-- A bus pattern decodes to a well-formed instruction whose frame it is (R60). -/
theorem encode_decode_bus (f : BitVec 44) : (decode (.bus f)).wellFormed = true ∧ encode (decode (.bus f)) = .bus f := by
  rw [← busFrame_fields f]
  cases f.getLsbD 43
  · rw [decode_busFrame_read]; exact ⟨rfl, rfl⟩
  · rw [decode_busFrame_write]; exact ⟨rfl, rfl⟩

/-- Settles O1: the eight commands are evaluated; a well-formed ILLEGAL word is one from 8 on; a bus transaction is its
frame's fields. -/
theorem encodedInstructionDecodesToItself : Obligations.EncodedInstructionDecodesToItself := by
  intro i hi
  cases i with
  | nop => rfl
  | expand => rfl
  | encrypt => rfl
  | decrypt => rfl
  | release => rfl
  | gfmul => rfl
  | subwF => rfl
  | subwI => rfl
  | illegal w =>
    rw [illegal_wellFormed_eq, decide_eq_true_iff] at hi
    exact decode_cmd_of_eight_le hi
  | busRd a d => exact decode_busFrame_read a d
  | busWr a d => exact decode_busFrame_write a d

/-- Settles O2: by the format, and in the CMD format by whether the word names a command. -/
theorem decodedCodeEncodesBack : Obligations.DecodedCodeEncodesBack := by
  intro c
  cases c with
  | cmd v =>
    rcases cmdWord_cases v with ⟨n, hn, rfl⟩ | ⟨hd, hw⟩
    · interval_cases n <;> exact ⟨rfl, rfl⟩
    · rw [hd]; exact ⟨hw, rfl⟩
  | bus f => exact encode_decode_bus f

/-- Settles O4: eight closed evaluations of the decoder. -/
theorem writtenOutWordsDecode : Obligations.WrittenOutWordsDecode := by
  unfold Obligations.WrittenOutWordsDecode
  decide

/-! ## Which move a step makes -/

section Moves

variable {s : State} {rest : List Input}

/-- A pending input is next when nothing is in flight or transactions still come before the completion step (R118). -/
theorem inputNext_of_pending {x : Input} (hin : s.inputs = x :: rest) (h : s.phase = .idle ∨ 0 < s.wait) : InputNext s :=
  h.imp_right fun hw => ⟨hw, by simp [hin]⟩

/-- A due completion step is taken (R114). -/
theorem step_of_due {op : Opcode} (h : Due s op) : step s = .next (complete op s) := by
  rw [step, nextMove_of_due h]

/-- The next transaction is run (R60, R67). -/
theorem step_of_bus {f : BitVec 44} (hin : s.inputs = .bus f :: rest) (h : s.phase = .idle ∨ 0 < s.wait) :
    step s = exec (decode (.bus f)) (takeInput rest s) := by
  rw [step, nextMove_of_inputNext (inputNext_of_pending hin h), hin, inputMove]

/-- The next assertion of rst is a reset step (R138). -/
theorem step_of_rst (hin : s.inputs = .rst :: rest) (h : s.phase = .idle ∨ 0 < s.wait) :
    step s = .next (resetStep (takeInput rest s)) := by
  rw [step, nextMove_of_inputNext (inputNext_of_pending hin h), hin, inputMove]

/-- With nothing in flight and nothing pending no agent moves (R8). -/
theorem step_of_nothing (hp : s.phase = .idle) (hin : s.inputs = []) : step s = .next s := by
  rw [step, nextMove_of_inputNext (.inl hp), hin, inputMove]

end Moves

/-- A pushed transaction, taken off and counted, leaves the state but for the count (R118). -/
theorem takeInput_pushTransaction (f : BitVec 44) (s : State) :
    takeInput s.inputs (pushTransaction f s) = { s with wait := s.wait - 1 } := by
  cases hp : s.phase with
  | idle => simp [takeInput, pushTransaction, hp]
  | busy op =>
    have hw : max s.wait 1 - 1 = s.wait - 1 := by omega
    simp [takeInput, pushTransaction, hp, hw]

/-- A pushed transaction is the next move, whatever the phase. -/
theorem step_pushTransaction (f : BitVec 44) (s : State) :
    step (pushTransaction f s) = exec (decode (.bus f)) { s with wait := s.wait - 1 } := by
  have hnext : (pushTransaction f s).phase = .idle ∨ 0 < (pushTransaction f s).wait := by
    cases hp : s.phase with
    | idle => exact .inl hp
    | busy op => exact .inr (by simp [pushTransaction, hp])
  rw [step_of_bus (rest := s.inputs) rfl hnext, takeInput_pushTransaction]

/-- The transaction that puts a code on the port runs the instruction of the code (R69). -/
theorem exec_frameOfCode (c : Code) (s : State) : exec (decode (.bus (frameOfCode c))) s = exec (decode c) s := by
  cases c with
  | cmd w =>
    rw [frameOfCode, decode_busFrame_write]
    exact exec_busWr_cmd w s
  | bus f => rfl

/-- A table word that decodes has a code of which it is the instruction. -/
theorem decodeTableWord_eq_some {nbits w : Nat} {i : Instr} (h : decodeTableWord nbits w = some i) :
    ∃ c, codeOfTableWord nbits w = .ok c ∧ decode c = i := by
  unfold decodeTableWord at h
  split at h
  · exact ⟨_, ‹_›, Option.some.inj h⟩
  · cases h

/-- No instruction faults or is refused (R123). -/
theorem exec_next (i : Instr) (s : State) : ∃ t, exec i s = .next t := by
  cases i <;> exact ⟨_, rfl⟩

/-- Settles O5: a pending transaction is the next move. -/
theorem stepRunsPendingTransaction : Obligations.StepRunsPendingTransaction :=
  fun _ _ _ hin h => step_of_bus hin h

/-- Settles O6: the word's code is pushed as a transaction, which is the next move and does what the code says. -/
theorem fetchWordRunsDecodedInstruction : Obligations.FetchWordRunsDecodedInstruction := by
  intro s nbits w i h
  obtain ⟨c, hc, rfl⟩ := decodeTableWord_eq_some h
  calc step (s.withFetchWord nbits w)
    _ = step (pushTransaction (frameOfCode c) s) := by rw [State.withFetchWord, hc]
    _ = exec (decode c) { s with wait := s.wait - 1 } := by rw [step_pushTransaction, exec_frameOfCode]

/-- Settles O12: every move of a step is a completion, a reset, no change, or an instruction, and `exec_next` covers those. -/
theorem everyStepHasANextState : Obligations.EveryStepHasANextState := by
  refine ⟨exec_next, fun s => ?_⟩
  unfold step
  split
  · exact ⟨_, rfl⟩
  · exact exec_next _ _
  · exact ⟨_, rfl⟩
  · exact ⟨_, rfl⟩

end Sys2Proof.Machine
end

section
/-! PROOFS. Who changes what: what issuing a command, a host transaction and a completion step can do to the state, field by
field, and the obligations about the writers of each register and flag (R20 to R33, R38, R127 to R130). -/

namespace Sys2Proof.Machine

open Sys2Proof.Statements

/-! ## Issuing a command -/

section Issue

variable (v : Word) (s : State)

/-- STATUS.ERR holds at most 5 (R125). -/
theorem errCode_le_five (c : ErrCode) : (errCode c).toNat ≤ 5 := by
  cases c <;> decide

/-- Every code but OK is at least 1 (R125). -/
theorem one_le_errCode {c : ErrCode} (h : c ≠ .ok) : 1 ≤ (errCode c).toNat := by
  cases c with
  | ok => exact absurd rfl h
  | _ => decide

/-- No check of EXPAND fails with OK (R91). -/
theorem expandCheck_ne_ok : expandCheck s ≠ some .ok := by
  unfold expandCheck
  split_ifs <;> simp

/-- A command that needs a Cipher State is accepted, or rejected with an error. -/
theorem acceptIfValid_accepts_or_rejects (op : Opcode) :
    acceptIfValid op s = accept op s ∨ ∃ c, c ≠ ErrCode.ok ∧ acceptIfValid op s = reject c s := by
  rcases acceptIfValid_cases op s with ⟨-, h⟩ | ⟨-, h⟩
  · exact .inl h
  · exact .inr ⟨.noSchedule, nofun, h⟩

/-- A command is accepted, or rejected with an error (R113, R124). -/
theorem issueOp_accepts_or_rejects (op : Opcode) :
    issueOp op s = accept op s ∨ ∃ c, c ≠ ErrCode.ok ∧ issueOp op s = reject c s := by
  cases op with
  | nop => exact .inl rfl
  | gfmul => exact .inl rfl
  | subwF => exact .inl rfl
  | subwI => exact .inl rfl
  | encrypt => exact acceptIfValid_accepts_or_rejects s .encrypt
  | decrypt => exact acceptIfValid_accepts_or_rejects s .decrypt
  | release => exact acceptIfValid_accepts_or_rejects s .release
  | expand =>
    rcases issueExpand_cases s with ⟨-, -, h⟩ | ⟨c, hc, h⟩
    · exact .inl h
    · exact .inr ⟨c, fun hok => expandCheck_ne_ok s (hok ▸ hc), h⟩

/-- A word written to CMD names a command that is accepted, or is rejected with an error (R113, R124). -/
theorem issueCommand_accepts_or_rejects :
    (∃ op, decodeOp v = some op ∧ issueCommand v s = accept op s) ∨
    ∃ c, c ≠ ErrCode.ok ∧ issueCommand v s = reject c s := by
  rcases issueCommand_cases v s with ⟨op, hop, h⟩ | ⟨-, h⟩
  · rw [h]
    exact (issueOp_accepts_or_rejects s op).imp_left fun ha => ⟨op, hop, ha⟩
  · exact .inr ⟨.illegalCmd, nofun, h⟩

/-- All that a word written to CMD can change: the phase, BUSY, DONE and ERR, and the model's own wait and draws. -/
theorem issueCommand_frame : ∃ ph b d e w n, issueCommand v s =
    { s with phase := ph, status := { s.status with busy := b, done := d, err := e }, wait := w, draws := n } := by
  rcases issueCommand_accepts_or_rejects v s with ⟨op, -, h⟩ | ⟨c, -, h⟩ <;> exact ⟨_, _, _, _, _, _, h⟩

end Issue

/-! ## Host transactions -/

/-- The byte offsets of the window where a target stands (R41). -/
def Target.Slot (off : Nat) : Target → Prop
  | .id => off = 0x000
  | .params => off = 0x004
  | .cfg => off = 0x008
  | .cmd => off = 0x00C
  | .status => off = 0x010
  | .irqen => off = 0x014
  | .operand => off = 0x018
  | .result => off = 0x01C
  | .key _ => 0x040 ≤ off ∧ off < 0x080
  | .block _ => 0x080 ≤ off ∧ off < 0x0C0
  | .ftab _ => 0x400 ≤ off ∧ off < 0x800
  | .itab _ => 0x800 ≤ off ∧ off < 0xC00
  | .sched _ => 0x1000 ≤ off
  | .unmapped => True

/-- Every offset stands in the slot of the target it names, slot by slot of the map. -/
theorem offsetTarget_slot (p : Params) (off : Nat) : (offsetTarget p off).Slot off := by
  unfold offsetTarget
  split_ifs
  · unfold controlTarget
    split
    case h_9 => trivial
    all_goals rfl
  · unfold keyTarget
    split
    · exact ⟨by omega, by omega⟩
    · trivial
  · unfold blockTarget
    split
    · exact ⟨by omega, by omega⟩
    · trivial
  · trivial
  · exact ⟨by omega, by omega⟩
  · exact ⟨by omega, by omega⟩
  · trivial
  · unfold schedTarget
    split
    · exact Nat.le_of_not_lt ‹_›
    · trivial

/-- An offset that names a target stands in its slot. -/
theorem slot_of_offsetTarget {p : Params} {off : Nat} {t : Target} (h : offsetTarget p off = t) : t.Slot off :=
  h ▸ offsetTarget_slot p off

/-- A word address that names a target stands in its slot. -/
theorem slot_of_target {p : Params} {a : BitVec 11} {t : Target} (h : target p a = t) : t.Slot (4 * a.toNat) :=
  slot_of_offsetTarget h

/-- A word address is the one of its byte offset (R40). -/
theorem addr_eq_of_offset {a b : BitVec 11} (h : 4 * a.toNat = 4 * b.toNat) : a = b :=
  BitVec.eq_of_toNat_eq (by omega)

section HostTransaction

variable {f : BitVec 44} {s t : State}

/-- Everything a host transaction can do: a read, a drop, or a write that reaches its target (R42, R43). -/
theorem exec_bus_cases (h : exec (decode (.bus f)) s = .next t) :
    (∃ a d, decode (.bus f) = .busRd a d ∧ t = busRead a s) ∨
    (s.status.busy = true ∧ t = dropBusy s) ∨
    (s.status.busy = false ∧ t = dropLocked s) ∨
    (∃ a d, decode (.bus f) = .busWr a d ∧ s.status.busy = false ∧
      ((target s.params a).locked = true → s.status.valid = false) ∧ t = writeTarget (target s.params a) d s) := by
  rcases decode_bus_cases f with ⟨a, d, hd⟩ | ⟨a, d, hd⟩ <;> rw [hd] at h ⊢
  · exact .inl ⟨a, d, rfl, (Host.Outcome.next.inj h).symm⟩
  · obtain rfl : busWrite a d s = t := Host.Outcome.next.inj h
    rcases busWrite_cases a d s with ⟨hb, e⟩ | ⟨hb, -, -, e⟩ | ⟨hb, hl, e⟩
    · exact .inr (.inl ⟨hb, e⟩)
    · exact .inr (.inr (.inl ⟨hb, e⟩))
    · exact .inr (.inr (.inr ⟨a, d, rfl, hb, hl, e⟩))

/-! Which target of a write changes a field. -/

variable {tg : Target} {d : Word}

theorem writeTarget_key (h : ∀ k, tg ≠ .key k) : (writeTarget tg d s).key = s.key := by
  cases tg with
  | cmd => obtain ⟨ph, b, dn, e, w, n, hc⟩ := issueCommand_frame d s; rw [writeTarget, hc]
  | key k => exact absurd rfl (h k)
  | _ => rfl

theorem writeTarget_block (h : ∀ k, tg ≠ .block k) : (writeTarget tg d s).block = s.block := by
  cases tg with
  | cmd => obtain ⟨ph, b, dn, e, w, n, hc⟩ := issueCommand_frame d s; rw [writeTarget, hc]
  | block k => exact absurd rfl (h k)
  | _ => rfl

theorem writeTarget_ie (h : tg ≠ .irqen) : (writeTarget tg d s).ie = s.ie := by
  cases tg with
  | cmd => obtain ⟨ph, b, dn, e, w, n, hc⟩ := issueCommand_frame d s; rw [writeTarget, hc]
  | irqen => exact absurd rfl h
  | _ => rfl

theorem writeTarget_status (h : tg ≠ .status) (hc : tg ≠ .cmd) : (writeTarget tg d s).status = s.status := by
  cases tg with
  | cmd => exact absurd rfl hc
  | status => exact absurd rfl h
  | _ => rfl

/-- BUSYERR and LOCKERR are written at STATUS only; a rejected command sets neither. -/
theorem writeTarget_errorBits (h : tg ≠ .status) :
    (writeTarget tg d s).status.busyErr = s.status.busyErr ∧ (writeTarget tg d s).status.lockErr = s.status.lockErr := by
  by_cases hc : tg = .cmd
  · obtain ⟨ph, b, dn, e, w, n, hi⟩ := issueCommand_frame d s
    rw [hc, writeTarget, hi]
    exact ⟨rfl, rfl⟩
  · rw [writeTarget_status h hc]
    exact ⟨rfl, rfl⟩

/-- What every host transaction keeps: the parameters, RESULT, SCHED, VALID, the queue and the count of resets; and, while
VALID = 1, CFG and the tables (R26, R33, R38 item 2). -/
structure HostFrame (s t : State) : Prop where
  params : t.params = s.params
  result : t.result = s.result
  sched : t.sched = s.sched
  valid : t.status.valid = s.status.valid
  inputs : t.inputs = s.inputs
  resets : t.resets = s.resets
  locked : s.status.valid = true → t.cfg = s.cfg ∧ t.tables = s.tables

/-- A write that the lock does not hold keeps the host's frame. -/
theorem writeTarget_hostFrame (d : Word) (h : tg.locked = true → s.status.valid = false) :
    HostFrame s (writeTarget tg d s) := by
  have hlock : s.status.valid = true → tg.locked ≠ true := fun hv ht => by simp [h ht] at hv
  cases tg with
  | cmd =>
    obtain ⟨ph, b, dn, e, w, n, hc⟩ := issueCommand_frame d s
    rw [writeTarget, hc]
    exact ⟨rfl, rfl, rfl, rfl, rfl, rfl, fun _ => ⟨rfl, rfl⟩⟩
  | cfg => exact ⟨rfl, rfl, rfl, rfl, rfl, rfl, fun hv => absurd rfl (hlock hv)⟩
  | ftab x => exact ⟨rfl, rfl, rfl, rfl, rfl, rfl, fun hv => absurd rfl (hlock hv)⟩
  | itab x => exact ⟨rfl, rfl, rfl, rfl, rfl, rfl, fun hv => absurd rfl (hlock hv)⟩
  | _ => exact ⟨rfl, rfl, rfl, rfl, rfl, rfl, fun _ => ⟨rfl, rfl⟩⟩

/-- Every host transaction keeps the host's frame. -/
theorem exec_bus_hostFrame (h : exec (decode (.bus f)) s = .next t) : HostFrame s t := by
  rcases exec_bus_cases h with ⟨a, d, -, rfl⟩ | ⟨-, rfl⟩ | ⟨-, rfl⟩ | ⟨a, d, -, -, hl, rfl⟩
  · obtain ⟨v, n, e⟩ := busRead_eq a s
    rw [e]
    exact ⟨rfl, rfl, rfl, rfl, rfl, rfl, fun _ => ⟨rfl, rfl⟩⟩
  · exact ⟨rfl, rfl, rfl, rfl, rfl, rfl, fun _ => ⟨rfl, rfl⟩⟩
  · exact ⟨rfl, rfl, rfl, rfl, rfl, rfl, fun _ => ⟨rfl, rfl⟩⟩
  · exact writeTarget_hostFrame d hl

/-- A host transaction that changes more than STATUS, the return path and the draws is a write that reaches its target. -/
theorem exec_bus_reaches (h : exec (decode (.bus f)) s = .next t)
    (hne : ∀ st v n, t ≠ { s with status := st, rdata := v, draws := n }) :
    ∃ a d, decode (.bus f) = .busWr a d ∧ t = writeTarget (target s.params a) d s := by
  rcases exec_bus_cases h with ⟨a, d, -, rfl⟩ | ⟨-, rfl⟩ | ⟨-, rfl⟩ | ⟨a, d, hd, -, -, ht⟩
  · obtain ⟨v, n, e⟩ := busRead_eq a s
    exact absurd e (hne _ _ _)
  · exact absurd rfl (hne _ _ _)
  · exact absurd rfl (hne _ _ _)
  · exact ⟨a, d, hd, ht⟩

/-- Only a write in the KEY slot changes KEY (R27). -/
theorem exec_bus_writes_key (h : exec (decode (.bus f)) s = .next t) (hk : t.key ≠ s.key) :
    ∃ a d, decode (.bus f) = .busWr a d ∧ 0x040 ≤ 4 * a.toNat ∧ 4 * a.toNat < 0x080 := by
  obtain ⟨a, d, hd, rfl⟩ := exec_bus_reaches h fun _ _ _ e => hk (by rw [e])
  obtain ⟨k, ht⟩ : ∃ k, target s.params a = .key k := by
    by_contra hno
    exact hk (writeTarget_key fun k ht => hno ⟨k, ht⟩)
  exact ⟨a, d, hd, slot_of_target ht⟩

/-- Only a write in the BLOCK slot changes BLOCK (R28). -/
theorem exec_bus_writes_block (h : exec (decode (.bus f)) s = .next t) (hk : t.block ≠ s.block) :
    ∃ a d, decode (.bus f) = .busWr a d ∧ 0x080 ≤ 4 * a.toNat ∧ 4 * a.toNat < 0x0C0 := by
  obtain ⟨a, d, hd, rfl⟩ := exec_bus_reaches h fun _ _ _ e => hk (by rw [e])
  obtain ⟨k, ht⟩ : ∃ k, target s.params a = .block k := by
    by_contra hno
    exact hk (writeTarget_block fun k ht => hno ⟨k, ht⟩)
  exact ⟨a, d, hd, slot_of_target ht⟩

/-- A host transaction keeps BUSYERR and LOCKERR or sets one, unless it is a write to STATUS while BUSY = 0, which clears those
written as 1 (R127, R128). -/
theorem exec_bus_errorBits (h : exec (decode (.bus f)) s = .next t) :
    ((s.status.busyErr = true → t.status.busyErr = true) ∧ (s.status.lockErr = true → t.status.lockErr = true)) ∨
    ∃ d, decode (.bus f) = .busWr 0x004#11 d ∧ s.status.busy = false ∧ t.status = statusW1C d s.status := by
  rcases exec_bus_cases h with ⟨a, d, -, rfl⟩ | ⟨-, rfl⟩ | ⟨-, rfl⟩ | ⟨a, d, hd, hb, -, rfl⟩
  · obtain ⟨v, n, e⟩ := busRead_eq a s
    simp [e]
  · simp
  · simp
  · by_cases ht : target s.params a = .status
    · obtain rfl : a = 0x004#11 := addr_eq_of_offset (slot_of_target ht)
      exact .inr ⟨d, hd, hb, by rw [ht]; rfl⟩
    · obtain ⟨hbe, hle⟩ := writeTarget_errorBits (s := s) (d := d) ht
      exact .inl ⟨hbe.trans, hle.trans⟩

/-- A host transaction takes a pending interrupt down only as a STATUS write that clears DONE, as a write to CMD that is
accepted, or as an IRQEN write that clears IE (R129, R130). -/
theorem exec_bus_irq (h : exec (decode (.bus f)) s = .next t) (hs : irq s = true) (ht : irq t = false) :
    (∃ d, decode (.bus f) = .busWr 0x004#11 d ∧ d.getLsbD 2 = true) ∨
    (∃ d, decode (.bus f) = .busWr 0x003#11 d ∧ t.status.busy = true) ∨
    (∃ d, decode (.bus f) = .busWr 0x005#11 d ∧ d.getLsbD 0 = false) := by
  obtain ⟨hie, hdone⟩ : s.ie = true ∧ s.status.done = true := by simpa [irq] using hs
  rcases exec_bus_cases h with ⟨a, d, -, rfl⟩ | ⟨-, rfl⟩ | ⟨-, rfl⟩ | ⟨a, d, hd, hb, -, rfl⟩
  · obtain ⟨v, n, e⟩ := busRead_eq a s
    simp [e, irq, hie, hdone] at ht
  · simp [irq, hie, hdone] at ht
  · simp [irq, hie, hdone] at ht
  · by_cases h1 : target s.params a = .status
    · obtain rfl : a = 0x004#11 := addr_eq_of_offset (slot_of_target h1)
      exact .inl ⟨d, hd, by simpa [h1, writeTarget, irq, hie, hdone] using ht⟩
    by_cases h2 : target s.params a = .cmd
    · obtain rfl : a = 0x003#11 := addr_eq_of_offset (slot_of_target h2)
      rw [h2, writeTarget] at ht ⊢
      rcases issueCommand_accepts_or_rejects d s with ⟨op, -, hc⟩ | ⟨c, -, hc⟩
      · exact .inr (.inl ⟨d, hd, by simp [hc]⟩)
      · simp [hc, irq, hie] at ht
    by_cases h3 : target s.params a = .irqen
    · obtain rfl : a = 0x005#11 := addr_eq_of_offset (slot_of_target h3)
      exact .inr (.inr ⟨d, hd, by simpa [h3, writeTarget, irq, hdone] using ht⟩)
    · simp [irq, writeTarget_ie h3, writeTarget_status h1 h2, hie, hdone] at ht

end HostTransaction

/-! ## Completion steps -/

section Completion

variable (op : Opcode) (s : State)

/-! Besides the status update, a completion step writes RESULT, SCHED, BLOCK and VALID, each for its own commands (R114). -/

@[simp] theorem perform_cfg : (perform op s).cfg = s.cfg := by cases op <;> rfl
@[simp] theorem perform_key : (perform op s).key = s.key := by cases op <;> rfl
@[simp] theorem perform_tables : (perform op s).tables = s.tables := by cases op <;> rfl
@[simp] theorem perform_resets : (perform op s).resets = s.resets := by cases op <;> rfl
@[simp] theorem perform_ie : (perform op s).ie = s.ie := by cases op <;> rfl
@[simp] theorem perform_busyErr : (perform op s).status.busyErr = s.status.busyErr := by cases op <;> rfl
@[simp] theorem perform_lockErr : (perform op s).status.lockErr = s.status.lockErr := by cases op <;> rfl

variable {op}

theorem perform_sched (h : op ≠ .expand) : (perform op s).sched = s.sched := by
  cases op with
  | expand => exact absurd rfl h
  | _ => rfl

theorem perform_result (h : ¬(op = .gfmul ∨ op = .subwF ∨ op = .subwI)) : (perform op s).result = s.result := by
  cases op with
  | gfmul => simp at h
  | subwF => simp at h
  | subwI => simp at h
  | _ => rfl

theorem perform_block (h : ¬(op = .encrypt ∨ op = .decrypt)) : (perform op s).block = s.block := by
  cases op with
  | encrypt => simp at h
  | decrypt => simp at h
  | _ => rfl

/-- VALID is set by EXPAND, cleared by RELEASE, and kept by the others (R22). -/
theorem perform_valid : (op = .expand ∧ (perform op s).status.valid = true) ∨
    (op = .release ∧ (perform op s).status.valid = false) ∨
    (op ≠ .expand ∧ op ≠ .release ∧ (perform op s).status.valid = s.status.valid) := by
  cases op with
  | expand => exact .inl ⟨rfl, rfl⟩
  | release => exact .inr (.inl ⟨rfl, rfl⟩)
  | _ => exact .inr (.inr ⟨nofun, nofun, rfl⟩)

end Completion

/-! ## The obligations -/

/-- Settles O32: a read changes the return path and the draws, and a write is dropped, by `exec_bus_cases`. -/
theorem busyHostStepOnlySetsBusyerr : Obligations.BusyHostStepOnlySetsBusyerr := by
  intro s f hb
  obtain ⟨t, ht⟩ := exec_next (decode (.bus f)) s
  refine ⟨t, ht, ?_⟩
  rcases exec_bus_cases ht with ⟨a, d, -, rfl⟩ | ⟨-, rfl⟩ | ⟨hi, -⟩ | ⟨a, d, -, hi, -⟩
  · obtain ⟨v, n, e⟩ := busRead_eq a s
    rw [e]
    exact ⟨rfl, id⟩
  · exact ⟨rfl, fun _ => rfl⟩
  · simp [hb] at hi
  · simp [hb] at hi

/-- Settles O33: of the moves, host transactions keep VALID; a completion step changes it for EXPAND and RELEASE only. -/
theorem onlyExpandReleaseResetChangeValid : Obligations.OnlyExpandReleaseResetChangeValid := by
  intro s t h hv
  rcases step_cases h with ⟨op, hdue, rfl⟩ | ⟨-, f, rest, -, hx⟩ | ⟨-, rest, hin, rfl⟩ | ⟨-, -, rfl⟩
  · rcases perform_valid s (op := op) with ⟨rfl, hp⟩ | ⟨rfl, hp⟩ | ⟨-, -, hp⟩
    · exact .inl ⟨hdue.1, rfl, hp⟩
    · exact .inr (.inl ⟨hdue.1, rfl, hp⟩)
    · exact absurd hp hv
  · exact absurd (exec_bus_hostFrame hx).valid hv
  · exact .inr (.inr ⟨rest, hin, rfl, rfl⟩)
  · exact absurd rfl hv

/-- Settles O35: SCHED, RESULT, KEY and BLOCK by the frames of a completion step and of a host transaction. -/
theorem dataRegistersHaveTheirOwnWriters : Obligations.DataRegistersHaveTheirOwnWriters := by
  intro s t h hr
  rcases step_cases h with ⟨op, ⟨hp, -⟩, rfl⟩ | ⟨-, f, rest, hin, hx⟩ | ⟨-, rest, -, rfl⟩ | ⟨-, -, rfl⟩
  · refine ⟨fun hne => ?_, fun hne => ?_, fun hne => absurd (perform_key op s) hne, fun hne => .inl ?_⟩
    · have hop : op = .expand := by_contra fun hno => hne (perform_sched s hno)
      exact ⟨hop ▸ hp, rfl⟩
    · have hop : op = .gfmul ∨ op = .subwF ∨ op = .subwI := by_contra fun hno => hne (perform_result s hno)
      exact ⟨by simpa [hp] using hop, rfl⟩
    · have hop : op = .encrypt ∨ op = .decrypt := by_contra fun hno => hne (perform_block s hno)
      exact ⟨by simpa [hp] using hop, rfl⟩
  · have hframe := exec_bus_hostFrame hx
    refine ⟨fun hne => absurd hframe.sched hne, fun hne => absurd hframe.result hne, fun hne => ?_, fun hne => .inr ?_⟩
    · obtain ⟨a, d, hd⟩ := exec_bus_writes_key hx hne
      exact ⟨f, a, d, rest, hin, hd⟩
    · obtain ⟨a, d, hd⟩ := exec_bus_writes_block hx hne
      exact ⟨f, a, d, rest, hin, hd⟩
  · simp at hr
  · exact ⟨fun hne => absurd rfl hne, fun hne => absurd rfl hne, fun hne => absurd rfl hne, fun hne => absurd rfl hne⟩

/-- Settles O36: a completion step keeps both bits, and of the host transactions only a STATUS write clears one. -/
theorem errorBitsStayUntilCleared : Obligations.ErrorBitsStayUntilCleared := by
  intro s t h hr
  rcases step_cases h with ⟨op, -, rfl⟩ | ⟨-, f, rest, hin, hx⟩ | ⟨-, rest, -, rfl⟩ | ⟨-, -, rfl⟩
  · constructor <;> intro h1 h0 <;> simp [complete, h1] at h0
  · rcases exec_bus_errorBits hx with ⟨hbe, hle⟩ | ⟨d, hd, hb, hst⟩
    · exact ⟨fun h1 h0 => absurd ((hbe h1).symm.trans h0) nofun, fun h1 h0 => absurd ((hle h1).symm.trans h0) nofun⟩
    · exact ⟨fun h1 h0 => ⟨hb, f, d, rest, hin, hd, by simpa [hst, h1] using h0⟩,
        fun h1 h0 => ⟨hb, f, d, rest, hin, hd, by simpa [hst, h1] using h0⟩⟩
  · simp at hr
  · constructor <;> intro h1 h0 <;> simp [h1] at h0

/-- Settles O37: a completion step sets DONE and keeps IE; of the host transactions `exec_bus_irq` names those that clear one. -/
theorem interruptStaysPendingUntilCleared : Obligations.InterruptStaysPendingUntilCleared := by
  intro s t h hs ht
  rcases step_cases h with ⟨op, -, rfl⟩ | ⟨-, f, rest, hin, hx⟩ | ⟨-, rest, hin, rfl⟩ | ⟨-, -, rfl⟩
  · obtain ⟨hie, -⟩ : s.ie = true ∧ s.status.done = true := by simpa [irq] using hs
    simp [irq, complete, hie] at ht
  · rcases exec_bus_irq hx hs ht with ⟨d, hd⟩ | ⟨d, hd⟩ | ⟨d, hd⟩
    · exact .inl ⟨f, d, rest, hin, hd⟩
    · exact .inr (.inl ⟨f, d, rest, hin, hd⟩)
    · exact .inr (.inr (.inl ⟨f, d, rest, hin, hd⟩))
  · exact .inr (.inr (.inr ⟨rest, hin, rfl⟩))
  · simp [hs] at ht

end Sys2Proof.Machine
end

section
/-! PROOFS. The invariant State.Inv: it holds after every reset, every operation keeps it, and so every step does (R38, R39,
R125); and with it the immutability of a Cipher State (R20, R32, R110). -/

namespace Sys2Proof.Machine

open Sys2Proof.Statements

/-! ## Legal configurations and the schedule -/

section Schedule

variable {c : Cfg} {key rest : List Word}

/-- The expansion of a key of at least NK words has NB*(NR+1) words (R89). -/
theorem expand_length (ft : Byte → Byte) (hkey : c.NK ≤ key.length) (hfit : c.NK ≤ c.words) :
    (expand key c ft).length = c.words := by
  rw [expand, expandLoop_length, List.length_take_of_le hkey, Nat.add_sub_cancel' hfit]

/-- The expansion begins with the raw key (R87). -/
theorem expand_take_NK (ft : Byte → Byte) (hkey : c.NK ≤ key.length) : (expand key c ft).take c.NK = key.take c.NK := by
  have h := expandLoop_take ft c.NK (c.words - c.NK) (key.take c.NK)
  rwa [List.length_take_of_le hkey] at h

/-- A schedule that an expansion was written to holds the expansion of its own first NK words (R39, R90). -/
theorem expansion_is_consistent (ft : Byte → Byte) (hkey : c.NK ≤ key.length) (hfit : c.NK ≤ c.words) :
    (expand key c ft ++ rest).take c.words = expand ((expand key c ft ++ rest).take c.NK) c ft := by
  have hlen := expand_length ft hkey hfit
  rw [List.take_append_of_le_length hlen.ge, List.take_of_length_le hlen.le,
    List.take_append_of_le_length (hfit.trans_eq hlen.symm), expand_take_NK ft hkey, expand_take_key]

/-- A list keeps its length when its first words are replaced. -/
theorem length_replaceFirst {ws l : List Word} (h : ws.length ≤ l.length) : (ws ++ l.drop ws.length).length = l.length := by
  simp [h]

end Schedule

/-! ## Each operation keeps the invariant -/

section Keeps

variable {s : State}

/-- The state after any reset with legal parameters (R37). -/
theorem inv_resetWith {p : Params} (hp : p.Legal) (r : Nat) : (State.resetWith p r).Inv where
  params := hp
  keyLen := List.length_replicate
  blockLen := List.length_replicate
  schedLen := by simp [State.resetWith]
  tables := resetWith_tables_wf p r
  busy := by simp [State.resetWith, Status.reset]
  err := by simp [State.resetWith, Status.reset]
  legal := nofun
  schedule := nofun
  expandOk := nofun
  engineOk := nofun

/-- A reset step ends in a reset state, but for what is not AES-CORE's (R138). -/
theorem inv_resetStep (h : s.Inv) : (resetStep s).Inv := by
  have hr := inv_resetWith h.params (s.resets + 1)
  exact ⟨hr.params, hr.keyLen, hr.blockLen, hr.schedLen, hr.tables, hr.busy, hr.err, hr.legal, hr.schedule, hr.expandOk,
    hr.engineOk⟩

/-- The invariant says nothing of IRQEN, OPERAND, RESULT and the model's own fields. -/
theorem inv_of_free_fields (h : s.Inv) (ie : Bool) (op res v : Word) (ins : List Input) (w n : Nat) :
    State.Inv { s with ie := ie, operand := op, result := res, inputs := ins, wait := w, rdata := v, draws := n } :=
  ⟨h.params, h.keyLen, h.blockLen, h.schedLen, h.tables, h.busy, h.err, h.legal, h.schedule, h.expandOk, h.engineOk⟩

/-- Of STATUS it speaks of BUSY, VALID and ERR only. -/
theorem inv_of_status (h : s.Inv) {st : Status} (hb : st.busy = s.status.busy) (hv : st.valid = s.status.valid)
    (he : st.err.toNat ≤ 5) : State.Inv { s with status := st } where
  params := h.params
  keyLen := h.keyLen
  blockLen := h.blockLen
  schedLen := h.schedLen
  tables := h.tables
  busy := by rw [hb]; exact h.busy
  err := he
  legal := by rw [hv]; exact h.legal
  schedule := by rw [hv]; exact h.schedule
  expandOk := by rw [hv]; exact h.expandOk
  engineOk := by rw [hv]; exact h.engineOk

/-- While BUSY = 0 no command is in flight (R38 item 4). -/
theorem phase_idle_of_inv (h : s.Inv) (hb : s.status.busy = false) : s.phase = .idle := by
  by_contra hne
  simp [h.busy.2 hne] at hb

/-- Without a Cipher State and Idle, CFG and the tables may be written, the tables in canonical form (R38 item 2). -/
theorem inv_of_unlocked (h : s.Inv) (hp : s.phase = .idle) (hv : s.status.valid = false) (c : Cfg) {m : Memory}
    (hm : Memory.wf s.unlisted m = true) : State.Inv { s with cfg := c, tables := m } where
  params := h.params
  keyLen := h.keyLen
  blockLen := h.blockLen
  schedLen := h.schedLen
  tables := hm
  busy := h.busy
  err := h.err
  legal := fun hvalid => by simp [hv] at hvalid
  schedule := fun hvalid => by simp [hv] at hvalid
  expandOk := fun hphase => by simp [hp] at hphase
  engineOk := fun _ hphase => by simp [hp] at hphase

/-- KEY and BLOCK may hold any words of their number (R51). -/
theorem inv_of_key_block (h : s.Inv) {k b : List Word} (hk : k.length = s.key.length) (hb : b.length = s.block.length) :
    State.Inv { s with key := k, block := b } where
  params := h.params
  keyLen := hk.trans h.keyLen
  blockLen := hb.trans h.blockLen
  schedLen := h.schedLen
  tables := h.tables
  busy := h.busy
  err := h.err
  legal := h.legal
  schedule := h.schedule
  expandOk := h.expandOk
  engineOk := h.engineOk

/-- A rejection writes a code that is at most 5 (R125). -/
theorem inv_reject (h : s.Inv) (c : ErrCode) : (reject c s).Inv :=
  inv_of_status h rfl rfl (errCode_le_five c)

/-- An acceptance under its conditions (R91, R113). -/
theorem inv_accept (h : s.Inv) {op : Opcode} (hx : op = .expand → s.status.valid = false ∧ s.cfg.Legal s.params)
    (hn : needsSchedule op = true → s.status.valid = true) : (accept op s).Inv where
  params := h.params
  keyLen := h.keyLen
  blockLen := h.blockLen
  schedLen := h.schedLen
  tables := h.tables
  busy := by simp
  err := h.err
  legal := h.legal
  schedule := h.schedule
  expandOk := fun hphase => hx (by simpa using hphase)
  engineOk := fun op' hphase => by
    obtain rfl : op = op' := by simpa using hphase
    exact hn

/-- A word written to CMD. -/
theorem inv_issueCommand (h : s.Inv) (v : Word) : (issueCommand v s).Inv := by
  rcases issueCommand_cases v s with ⟨op, -, e⟩ | ⟨-, e⟩ <;> rw [e]
  · rcases issueOp_cases op s with ⟨ha, hn, hx⟩ | ⟨c, hr⟩
    · rw [ha]; exact inv_accept h hx hn
    · rw [hr]; exact inv_reject h c
  · exact inv_reject h .illegalCmd

/-- A write that reaches its target while BUSY = 0, outside the lock (R43, R50). -/
theorem inv_writeTarget (h : s.Inv) {tg : Target} (d : Word) (hb : s.status.busy = false)
    (hl : tg.locked = true → s.status.valid = false) : (writeTarget tg d s).Inv := by
  have hidle := phase_idle_of_inv h hb
  cases tg with
  | cfg => exact inv_of_unlocked h hidle (hl rfl) (cfgOfWord d) h.tables
  | cmd => exact inv_issueCommand h d
  | status => exact inv_of_status h rfl rfl h.err
  | irqen => exact inv_of_free_fields h ..
  | operand => exact inv_of_free_fields h ..
  | key k => exact inv_of_key_block h List.length_set rfl
  | block k => exact inv_of_key_block h rfl List.length_set
  | ftab x => exact inv_of_unlocked h hidle (hl rfl) s.cfg (writeTable_wf s ftabBase (.inl rfl) x _ h.tables)
  | itab x => exact inv_of_unlocked h hidle (hl rfl) s.cfg (writeTable_wf s itabBase (.inr rfl) x _ h.tables)
  | id => exact h
  | params => exact h
  | result => exact h
  | sched k => exact h
  | unmapped => exact h

/-- A host transaction. -/
theorem inv_exec_bus (h : s.Inv) {f : BitVec 44} {t : State} (hx : exec (decode (.bus f)) s = .next t) : t.Inv := by
  rcases exec_bus_cases hx with ⟨a, d, -, rfl⟩ | ⟨-, rfl⟩ | ⟨-, rfl⟩ | ⟨a, d, -, hb, hl, rfl⟩
  · obtain ⟨v, n, e⟩ := busRead_eq a s
    rw [e]; exact inv_of_free_fields h ..
  · exact inv_of_status h rfl rfl h.err
  · exact inv_of_status h rfl rfl h.err
  · exact inv_writeTarget h d hb hl

/-- With nothing left in flight VALID may be kept or cleared (R92, R114). -/
theorem inv_of_idle_status (h : s.Inv) {st : Status} (hb : st.busy = false) (hv : st.valid = true → s.status.valid = true)
    (he : st.err.toNat ≤ 5) : State.Inv { s with status := st, phase := .idle } where
  params := h.params
  keyLen := h.keyLen
  blockLen := h.blockLen
  schedLen := h.schedLen
  tables := h.tables
  busy := by simp [hb]
  err := he
  legal := fun hvalid => h.legal (hv hvalid)
  schedule := fun hvalid => h.schedule (hv hvalid)
  expandOk := nofun
  engineOk := nofun

/-- The status update of a completion step, after work that keeps the invariant (R114). -/
theorem inv_finish (h : s.Inv) : (finish s).Inv :=
  inv_of_idle_status h rfl id (errCode_le_five .ok)

/-- RELEASE leaves no Cipher State (R92). -/
theorem inv_complete_release (h : s.Inv) : (complete .release s).Inv :=
  inv_of_idle_status h rfl nofun (errCode_le_five .ok)

/-- EXPAND makes a Cipher State: the schedule is the expansion of KEY (R90). -/
theorem inv_complete_expand (h : s.Inv) (hl : s.cfg.Legal s.params) : (complete .expand s).Inv := by
  have hkey : s.cfg.NK ≤ s.key.length := h.keyLen ▸ hl.nk.2
  have hlen := expand_length (forwardTable s) hkey hl.nk_le
  exact {
    params := h.params
    keyLen := h.keyLen
    blockLen := h.blockLen
    schedLen := (length_replaceFirst (by rw [hlen, h.schedLen]; exact hl.fits)).trans h.schedLen
    tables := h.tables
    busy := by simp [complete]
    err := by simp [complete, errCode]
    legal := fun _ => hl
    schedule := fun _ => expansion_is_consistent (forwardTable s) hkey hl.nk_le
    expandOk := nofun
    engineOk := nofun }

/-- An engine's result replaces the words of BLOCK it was taken from (R105, R106). -/
theorem inv_setBlockPrefix (h : s.Inv) {ws : List Word} (hlen : ws.length ≤ s.block.length) : (setBlockPrefix ws s).Inv :=
  inv_of_key_block h rfl (length_replaceFirst hlen)

theorem activeBlock_length_le (s : State) : (activeBlock s).length ≤ s.block.length := by
  simp [activeBlock]

/-- The completion step of the command in flight. -/
theorem inv_complete (h : s.Inv) {op : Opcode} (hp : s.phase = .busy op) : (complete op s).Inv := by
  cases op with
  | expand => exact inv_complete_expand h (h.expandOk hp).2
  | release => exact inv_complete_release h
  | nop => exact inv_finish h
  | gfmul => exact inv_finish (inv_of_free_fields h ..)
  | subwF => exact inv_finish (inv_of_free_fields h ..)
  | subwI => exact inv_finish (inv_of_free_fields h ..)
  | encrypt =>
    exact inv_finish (inv_setBlockPrefix h (by rw [cipher_length]; exact activeBlock_length_le s))
  | decrypt =>
    exact inv_finish (inv_setBlockPrefix h (by rw [invCipher_length]; exact activeBlock_length_le s))

end Keeps

/-! ## The obligations -/

/-- Settles O10: both are states of `inv_resetWith`, the default parameters being legal. -/
theorem resetStatesSatisfyInvariant : Obligations.ResetStatesSatisfyInvariant :=
  ⟨inv_resetWith ⟨by decide, by decide, by decide⟩ 0, fun _ hp r => inv_resetWith hp r⟩

/-- Settles O11: by the move of the step; taking an input off the queue is a change the invariant does not see. -/
theorem stepKeepsInvariant : Obligations.StepKeepsInvariant := by
  intro s t h hs
  have htake (rest : List Input) : (takeInput rest s).Inv := inv_of_free_fields h ..
  rcases step_cases hs with ⟨op, hdue, rfl⟩ | ⟨-, f, rest, -, hx⟩ | ⟨-, rest, -, rfl⟩ | ⟨-, -, rfl⟩
  · exact inv_complete h hdue.1
  · exact inv_exec_bus (htake rest) hx
  · exact inv_resetStep (htake rest)
  · exact h

/-- Settles O34: with a Cipher State EXPAND is not in flight, the other completion steps write no part of it, and the lock keeps
the host out. -/
theorem cipherStateIsImmutable : Obligations.CipherStateIsImmutable := by
  intro s t h hs hv ht
  rcases step_cases hs with ⟨op, hdue, rfl⟩ | ⟨-, f, rest, -, hx⟩ | ⟨-, rest, -, rfl⟩ | ⟨-, -, rfl⟩
  · have hne : op ≠ .expand := by
      rintro rfl
      simp [(h.expandOk hdue.1).1] at hv
    exact ⟨perform_cfg op s, perform_tables op s, perform_resets op s, perform_sched s hne⟩
  · have hframe := exec_bus_hostFrame hx
    exact ⟨(hframe.locked hv).1, (hframe.locked hv).2, hframe.resets, hframe.sched⟩
  · simp [Status.reset] at ht
  · exact ⟨rfl, rfl, rfl, rfl⟩

end Sys2Proof.Machine
end

section
/-! PROOFS. Host reads of the register window: the words of CFG, STATUS, PARAMS and IRQEN as numbers (R18, R22, R24, R34), the
value at every byte offset (R41, R42), the reads that are free while BUSY = 1 (R49), and what a reset leaves there (R37, R138). -/

namespace Sys2Proof.Machine

open Sys2Proof.Statements

/-! ## The register words as numbers -/

/-- A concatenation as a number. -/
theorem toNat_append_eq_mul_add {m n : Nat} (x : BitVec m) (y : BitVec n) : (x ++ y).toNat = x.toNat * 2 ^ n + y.toNat := by
  rw [BitVec.toNat_append, ← Nat.shiftLeft_add_eq_or_of_lt y.isLt, Nat.shiftLeft_eq]

/-- A bit of a word as a number. -/
theorem toNat_ofBool_eq_bit (b : Bool) : (BitVec.ofBool b).toNat = bit b := by
  cases b <;> rfl

theorem bit_le_one (b : Bool) : bit b ≤ 1 := by
  cases b <;> decide

/-- The CFG word has the fields at the bit positions of R18. -/
theorem cfgWord_eq_ofNat (c : Cfg) : cfgWord c = BitVec.ofNat 32 (cfgNumber c) := by
  refine BitVec.eq_of_toNat_eq ?_
  have := c.nk.isLt
  have := c.nb.isLt
  have := c.nr.isLt
  have := bit_le_one c.fsel
  have := bit_le_one c.isel
  simp only [cfgWord, toNat_append_eq_mul_add, toNat_ofBool_eq_bit, BitVec.toNat_ofNat, cfgNumber]
  omega

/-- The STATUS word has the fields at the bit positions of R22. -/
theorem statusWord_eq_ofNat (st : Status) : statusWord st = BitVec.ofNat 32 (statusNumber st) := by
  refine BitVec.eq_of_toNat_eq ?_
  have := st.err.isLt
  have := bit_le_one st.busy
  have := bit_le_one st.valid
  have := bit_le_one st.done
  have := bit_le_one st.busyErr
  have := bit_le_one st.lockErr
  simp only [statusWord, toNat_append_eq_mul_add, toNat_ofBool_eq_bit, BitVec.toNat_ofNat, statusNumber]
  omega

/-- The PARAMS word has the parameters at the bit positions of R34, which hold every legal value. -/
theorem paramsWord_eq_ofNat {p : Params} (hp : p.Legal) : paramsWord p = BitVec.ofNat 32 (paramsNumber p) := by
  refine BitVec.eq_of_toNat_eq ?_
  have := hp.nk
  have := hp.nb
  have := hp.words
  simp only [paramsWord, toNat_append_eq_mul_add, BitVec.toNat_ofNat, paramsNumber]
  omega

/-- The IRQEN word is IE (R24). -/
theorem irqenWord_eq_ofNat (ie : Bool) : irqenWord ie = BitVec.ofNat 32 (bit ie) := by
  cases ie <;> rfl

/-! ## The value at a byte offset -/

section WindowValue

variable {s : State} {off : Nat}

/-- A control register. -/
theorem readTarget_controlTarget (hp : s.params.Legal) (h : off < 0x040) :
    readTarget s (controlTarget off) = windowValue s off := by
  unfold controlTarget
  split
  · rfl
  · exact paramsWord_eq_ofNat hp
  · exact cfgWord_eq_ofNat s.cfg
  · rfl
  · exact statusWord_eq_ofNat s.status
  · exact irqenWord_eq_ofNat s.ie
  · rfl
  · rfl
  · unfold windowValue
    iterate 12 rw [if_neg (by omega)]
    rfl

/-! Each array's offsets are none of the cases before it in the table, since legal parameters keep an array in its slot. -/

theorem windowValue_key (h : 0x040 ≤ off ∧ off < 0x040 + 4 * s.params.nkMax) :
    windowValue s off = s.key.getD ((off - 0x040) / 4) 0#32 := by
  unfold windowValue
  iterate 8 rw [if_neg (by omega)]
  exact if_pos h

theorem windowValue_block (hp : s.params.Legal) (h : 0x080 ≤ off ∧ off < 0x080 + 4 * s.params.nbMax) :
    windowValue s off = s.block.getD ((off - 0x080) / 4) 0#32 := by
  have := hp.nk
  unfold windowValue
  iterate 9 rw [if_neg (by omega)]
  exact if_pos h

theorem windowValue_table (hp : s.params.Legal) (h : 0x400 ≤ off ∧ off < 0xC00) :
    windowValue s off = (Memory.read s.unlisted s.tables off).setWidth 32 := by
  have := hp.nk
  have := hp.nb
  unfold windowValue
  iterate 10 rw [if_neg (by omega)]
  exact if_pos h

/-- A word of the SCHED slot reads through the gate (R52). -/
theorem windowValue_sched (hp : s.params.Legal) (h : 0x1000 ≤ off ∧ off < 0x1000 + 4 * s.params.schedWords) :
    windowValue s off = schedView s ((off - 0x1000) / 4) := by
  have := hp.nk
  have := hp.nb
  unfold windowValue
  iterate 11 rw [if_neg (by omega)]
  exact if_pos h

/-- Everything else reads as 0 (R46). -/
theorem windowValue_of_no_register (hc : ¬off < 0x040) (hk : ¬(0x040 ≤ off ∧ off < 0x040 + 4 * s.params.nkMax))
    (hb : ¬(0x080 ≤ off ∧ off < 0x080 + 4 * s.params.nbMax)) (ht : ¬(0x400 ≤ off ∧ off < 0xC00))
    (hs : ¬(0x1000 ≤ off ∧ off < 0x1000 + 4 * s.params.schedWords)) : windowValue s off = 0#32 := by
  unfold windowValue
  iterate 8 rw [if_neg (by omega)]
  rw [if_neg hk, if_neg hb, if_neg ht, if_neg hs]

/-- An offset of the SCHED array names its word. -/
theorem offsetTarget_sched {p : Params} (h : 0x1000 ≤ off ∧ off < 0x1000 + 4 * p.schedWords) :
    offsetTarget p off = .sched ((off - 0x1000) / 4) := by
  unfold offsetTarget
  iterate 7 rw [if_neg (by omega)]
  exact if_pos (by omega)

/-- An offset outside the control registers and the arrays is unmapped. -/
theorem offsetTarget_of_no_register {p : Params} (hc : ¬off < 0x040) (hk : ¬(0x040 ≤ off ∧ off < 0x040 + 4 * p.nkMax))
    (hb : ¬(0x080 ≤ off ∧ off < 0x080 + 4 * p.nbMax)) (ht : ¬(0x400 ≤ off ∧ off < 0xC00))
    (hs : ¬(0x1000 ≤ off ∧ off < 0x1000 + 4 * p.schedWords)) : offsetTarget p off = .unmapped := by
  rcases offsetTarget_of_no_array hc hk hb ht with h | ⟨k, h⟩
  · exact h
  · have hslot : 0x1000 ≤ off := slot_of_offsetTarget h
    unfold offsetTarget
    iterate 7 rw [if_neg (by omega)]
    exact if_neg (by omega)

/-- A read that is not free returns what the map's table says (R41, R42). -/
theorem readTarget_offsetTarget (hp : s.params.Legal) (h4 : 4 ∣ off) :
    readTarget s (offsetTarget s.params off) = windowValue s off := by
  by_cases hc : off < 0x040
  · rw [offsetTarget, if_pos hc, readTarget_controlTarget hp hc]
  by_cases hk : 0x040 ≤ off ∧ off < 0x040 + 4 * s.params.nkMax
  · rw [offsetTarget_key hp hk, windowValue_key hk, readTarget]
  by_cases hb : 0x080 ≤ off ∧ off < 0x080 + 4 * s.params.nbMax
  · rw [offsetTarget_block hp hb, windowValue_block hp hb, readTarget]
  by_cases ht : 0x400 ≤ off ∧ off < 0xC00
  · rw [windowValue_table hp ht]
    obtain ⟨x, ⟨e, hx⟩ | ⟨e, hx⟩⟩ := offsetTarget_table (p := s.params) h4 ht <;> rw [e, ← hx] <;> rfl
  by_cases hs : 0x1000 ≤ off ∧ off < 0x1000 + 4 * s.params.schedWords
  · rw [offsetTarget_sched hs, windowValue_sched hp hs, readTarget]
  · rw [offsetTarget_of_no_register hc hk hb ht hs, windowValue_of_no_register hc hk hb ht hs, readTarget]

/-! The free reads are those of RESULT, BLOCK and SCHED (R49). -/

theorem controlTarget_volatile : (controlTarget off).volatile = true ↔ off = 0x01C := by
  unfold controlTarget
  split <;> simp_all [Target.volatile]

theorem keyTarget_volatile {p : Params} (k : Nat) : (keyTarget p k).volatile = false := by
  unfold keyTarget
  split <;> rfl

theorem blockTarget_volatile {p : Params} (k : Nat) : (blockTarget p k).volatile = true ↔ k < p.nbMax := by
  unfold blockTarget
  split <;> simp_all [Target.volatile]

theorem schedTarget_volatile {p : Params} (k : Nat) : (schedTarget p k).volatile = true ↔ k < p.schedWords := by
  unfold schedTarget
  split <;> simp_all [Target.volatile]

/-- The target of a free read stands at a volatile offset, slot by slot of the map. -/
theorem volatileOffset_of_volatile (h : (offsetTarget s.params off).volatile = true) : VolatileOffset s off := by
  unfold offsetTarget at h
  unfold VolatileOffset
  split_ifs at h
  · exact .inl (controlTarget_volatile.1 h)
  · simp [keyTarget_volatile] at h
  · have := (blockTarget_volatile _).1 h
    omega
  · cases h
  · cases h
  · cases h
  · cases h
  · have := (schedTarget_volatile _).1 h
    omega

/-- Legal parameters keep BLOCK in its slot, so every volatile offset names the target of a free read. -/
theorem offsetTarget_volatile (hp : s.params.Legal) (h : VolatileOffset s off) :
    (offsetTarget s.params off).volatile = true := by
  rcases h with rfl | hb | hs
  · rfl
  · rw [offsetTarget_block hp hb]; rfl
  · rw [offsetTarget_sched hs]; rfl

/-- A read that is not free returns the value of the register map on the return path (R42). -/
theorem exec_busRd_of_current {a : BitVec 11} (d : Word) (hp : s.params.Legal)
    (h : ¬(s.status.busy = true ∧ VolatileOffset s (4 * a.toNat))) :
    exec (.busRd a d) s = .next { s with rdata := windowValue s (4 * a.toNat) } := by
  rcases busRead_cases a s with ⟨hb, hv, -⟩ | ⟨-, e⟩
  · exact absurd ⟨hb, volatileOffset_of_volatile hv⟩ h
  · refine congrArg Host.Outcome.next (e.trans ?_)
    rw [target, readTarget_offsetTarget hp (four_dvd_byteOffset a)]
    rfl

end WindowValue

/-! ## The reset values -/

theorem cfgNumber_reset : cfgNumber Cfg.reset = 0x000A0404 := by decide

theorem statusNumber_reset : statusNumber Status.reset = 0 := by decide

/-! ## The obligations -/

/-- Settles O25: with BUSY = 0 no read is free. -/
theorem readReturnsMappedValue : Obligations.ReadReturnsMappedValue := by
  intro s a d hp hb
  exact exec_busRd_of_current d hp (by simp [hb])

/-- Settles O26: the volatile offsets are the targets of the free reads. -/
theorem busyReadIsFreeOrCurrent : Obligations.BusyReadIsFreeOrCurrent := by
  intro s a d hp hb
  refine ⟨fun hv => ?_, fun hv => exec_busRd_of_current d hp fun h => hv h.2⟩
  have hfree : busRead a s = freeRead a s := if_pos ⟨hb, offsetTarget_volatile hp hv⟩
  exact ⟨_, congrArg Host.Outcome.next hfree⟩

/-- Settles O8: each control register is evaluated, the words of KEY and BLOCK are the zeros of the reset state, and the gate of
SCHED is closed. -/
theorem resetStateReadsAsSpecified : Obligations.ResetStateReadsAsSpecified := by
  refine ⟨rfl, rfl, rfl, rfl, rfl, rfl, rfl, fun k hk => ?_, fun k hk => ?_, fun k => ?_, rfl, rfl⟩
  · interval_cases k <;> rfl
  · interval_cases k <;> rfl
  · have hlegal : State.reset.params.Legal := resetStatesSatisfyInvariant.1.params
    by_cases h : 0x1000 + 4 * k < 0x1000 + 4 * State.reset.params.schedWords
    · rw [windowValue_sched hlegal ⟨by omega, h⟩]
      rfl
    · have := hlegal.nk
      have := hlegal.nb
      exact windowValue_of_no_register (by omega) (by omega) (by omega) (by omega) (by omega)

/-- Settles O9: the assertion of rst is the next move, and the state after it is a reset state, its tables unlisted. -/
theorem resetStepSetsResetValues : Obligations.ResetStepSetsResetValues := by
  intro s rest hin h
  exact ⟨_, step_of_rst hin h, cfgNumber_reset, statusNumber_reset, rfl, rfl, rfl, rfl, rfl, rfl, rfl, fun _ => rfl,
    fun _ => rfl, rfl, rfl, rfl⟩

end Sys2Proof.Machine
end

section
/-! PROOFS. Two runs compared: the engines read no word of SCHED behind the Key Schedule; a step does not show the words of SCHED
that no Cipher State holds (R33, R52), and shows KEY only where it is read or expanded (R27, R65). -/

namespace Sys2Proof.Machine

open Sys2Proof.Statements

/-! ## The words of the schedule that the engines read -/

section Engines

variable (ft it : Byte → Byte) (sched : List Word) {nb nr n r : Nat} {s : List Word}

/-- A round key up to round NR lies in the first NB*(NR+1) words of the schedule (R102). -/
theorem addRoundKey_take (hr : r ≤ nr) (hs : s.length ≤ nb) :
    addRoundKey (sched.take (nb * (nr + 1))) nb r s = addRoundKey sched nb r s := by
  refine List.map_congr_left fun c hc => ?_
  have hlt : r * nb + c < nb * (nr + 1) := by
    calc r * nb + c
      _ < r * nb + nb := by have := List.mem_range.1 hc; omega
      _ = nb * (r + 1) := by ring
      _ ≤ nb * (nr + 1) := Nat.mul_le_mul_left nb (by omega)
  simp only [List.getD, List.getElem?_take_of_lt hlt]

theorem cipherRounds_take (hn : n ≤ nr) (hs : s.length ≤ nb) :
    cipherRounds ft (sched.take (nb * (nr + 1))) nb n s = cipherRounds ft sched nb n s := by
  induction n with
  | zero => rfl
  | succ n ih => rw [cipherRounds, cipherRounds, ih (by omega), cipherRound, addRoundKey_take sched hn (by simpa), cipherRound]

/-- Cipher reads the words of the Key Schedule only (R103). -/
theorem cipher_take (hs : s.length ≤ nb) : cipher ft (sched.take (nb * (nr + 1))) nb nr s = cipher ft sched nb nr s := by
  rw [cipher, addRoundKey_take sched (Nat.zero_le nr) hs, cipherRounds_take ft sched (Nat.sub_le nr 1) (by simpa),
    addRoundKey_take sched le_rfl (by simpa), cipher]

theorem invCipherRounds_take (hn : n ≤ nr) (hs : s.length ≤ nb) :
    invCipherRounds it (sched.take (nb * (nr + 1))) nb n s = invCipherRounds it sched nb n s := by
  induction n generalizing s with
  | zero => rfl
  | succ n ih =>
    rw [invCipherRounds, invCipherRound, addRoundKey_take sched hn (by simpa), ih (by omega) (by simpa), invCipherRounds,
      invCipherRound]

/-- InvCipher reads the words of the Key Schedule only (R104). -/
theorem invCipher_take (hs : s.length ≤ nb) :
    invCipher it (sched.take (nb * (nr + 1))) nb nr s = invCipher it sched nb nr s := by
  rw [invCipher, addRoundKey_take sched le_rfl hs, invCipherRounds_take it sched (Nat.sub_le nr 1) (by simpa),
    addRoundKey_take sched (Nat.zero_le nr) (by simpa), invCipher]

end Engines

/-! ## Commands at two states -/

/-- Whether and how a command is rejected depends on VALID, CFG and the parameters only, so two states that agree there give one
answer (R91, R113). -/
theorem issueCommand_same_answer {s s' : State} (hv : s'.status.valid = s.status.valid)
    (hx : expandCheck s' = expandCheck s) (v : Word) :
    (∃ op, issueCommand v s = accept op s ∧ issueCommand v s' = accept op s') ∨
    ∃ c, issueCommand v s = reject c s ∧ issueCommand v s' = reject c s' := by
  have hneeds (op : Opcode) : (acceptIfValid op s = accept op s ∧ acceptIfValid op s' = accept op s') ∨
      (acceptIfValid op s = reject .noSchedule s ∧ acceptIfValid op s' = reject .noSchedule s') := by
    cases h : s.status.valid <;> simp [acceptIfValid, h, hv]
  simp only [issueCommand]
  cases decodeOp v with
  | none => exact .inr ⟨.illegalCmd, rfl, rfl⟩
  | some op =>
    cases op with
    | expand =>
      simp only [issueOp, issueExpand, hx]
      cases expandCheck s with
      | none => exact .inl ⟨.expand, rfl, rfl⟩
      | some c => exact .inr ⟨c, rfl, rfl⟩
    | encrypt => exact (hneeds .encrypt).imp (fun h => ⟨_, h⟩) fun h => ⟨_, h⟩
    | decrypt => exact (hneeds .decrypt).imp (fun h => ⟨_, h⟩) fun h => ⟨_, h⟩
    | release => exact (hneeds .release).imp (fun h => ⟨_, h⟩) fun h => ⟨_, h⟩
    | nop => exact .inl ⟨.nop, rfl, rfl⟩
    | gfmul => exact .inl ⟨.gfmul, rfl, rfl⟩
    | subwF => exact .inl ⟨.subwF, rfl, rfl⟩
    | subwI => exact .inl ⟨.subwI, rfl, rfl⟩

/-- Two states with the same phase, queue and wait make the same move. -/
theorem step_same_move {s s' t t' : State} (hp : s'.phase = s.phase) (hi : s'.inputs = s.inputs) (hw : s'.wait = s.wait)
    (h : step s = .next t) (h' : step s' = .next t') :
    (∃ op, Due s op ∧ t = complete op s ∧ t' = complete op s') ∨
    (∃ f rest, s.inputs = .bus f :: rest ∧ exec (decode (.bus f)) (takeInput rest s) = .next t ∧
      exec (decode (.bus f)) (takeInput rest s') = .next t') ∨
    (∃ rest, t = resetStep (takeInput rest s) ∧ t' = resetStep (takeInput rest s')) ∨ (t = s ∧ t' = s') := by
  rcases step_cases h with ⟨op, hdue, rfl⟩ | ⟨hnext, f, rest, hin, hx⟩ | ⟨hnext, rest, hin, rfl⟩ | ⟨hidle, hin, rfl⟩
  · have hdue' : Due s' op := by rwa [Due, hp, hi, hw]
    exact .inl ⟨op, hdue, rfl, Host.Outcome.next.inj (h'.symm.trans (step_of_due hdue'))⟩
  · have hnext' : s'.phase = .idle ∨ 0 < s'.wait := by rw [hp, hw]; exact hnext.imp_right And.left
    exact .inr (.inl ⟨f, rest, hin, hx, (step_of_bus (hi.trans hin) hnext').symm.trans h'⟩)
  · have hnext' : s'.phase = .idle ∨ 0 < s'.wait := by rw [hp, hw]; exact hnext.imp_right And.left
    exact .inr (.inr (.inl ⟨rest, rfl, Host.Outcome.next.inj (h'.symm.trans (step_of_rst (hi.trans hin) hnext'))⟩))
  · have hstay := step_of_nothing (hp.trans hidle) (hi.trans hin)
    exact .inr (.inr (.inr ⟨rfl, Host.Outcome.next.inj (h'.symm.trans hstay)⟩))

/-! ## Stale words of the schedule -/

section StaleSchedule

variable {s : State} {ws : List Word}

/-- The words of `ws` are those of SCHED as far as the Cipher State holds any. -/
def HeldWords (s : State) (ws : List Word) : Prop :=
  s.status.valid = true → ws.take s.cfg.words = s.sched.take s.cfg.words

/-- The gate shows held words only (R52). -/
theorem schedView_of_heldWords (h : HeldWords s ws) (k : Nat) : schedView { s with sched := ws } k = schedView s k := by
  unfold schedView
  by_cases hv : s.status.valid = true ∧ k < s.cfg.words
  · have hk := congrArg (·[k]?) (h hv.1)
    simp only [List.getElem?_take_of_lt hv.2] at hk
    rw [if_pos hv, if_pos hv, List.getD, List.getD, hk]
  · rw [if_neg hv, if_neg hv]

theorem readTarget_of_heldWords (h : HeldWords s ws) (t : Target) :
    readTarget { s with sched := ws } t = readTarget s t := by
  cases t with
  | sched k => exact schedView_of_heldWords h k
  | _ => rfl

theorem busRead_of_heldWords (h : HeldWords s ws) (a : BitVec 11) :
    busRead a { s with sched := ws } = { busRead a s with sched := ws } := by
  unfold busRead
  split_ifs
  · rw [freeRead, observed_congr_sched h, freeRead]
  · rw [readTarget_of_heldWords h, setRdata, setRdata]

/-- A word written to CMD: the time drawn at an acceptance depends on held words only (log 3). -/
theorem issueCommand_of_heldWords (h : HeldWords s ws) (v : Word) :
    issueCommand v { s with sched := ws } = { issueCommand v s with sched := ws } := by
  rcases issueCommand_same_answer (s := s) (s' := { s with sched := ws }) rfl rfl v with ⟨op, h1, h2⟩ | ⟨c, h1, h2⟩
  · rw [h1, h2, accept, observed_congr_sched h, accept]
  · rw [h1, h2]; rfl

theorem writeTarget_of_heldWords (h : HeldWords s ws) (t : Target) (d : Word) :
    writeTarget t d { s with sched := ws } = { writeTarget t d s with sched := ws } := by
  cases t with
  | cmd => exact issueCommand_of_heldWords h d
  | _ => rfl

theorem busWrite_of_heldWords (h : HeldWords s ws) (a : BitVec 11) (d : Word) :
    busWrite a d { s with sched := ws } = { busWrite a d s with sched := ws } := by
  unfold busWrite whenNotBusy
  split_ifs
  · rfl
  · unfold writeUnlocked
    split_ifs
    · rfl
    · exact writeTarget_of_heldWords h _ d

/-- A host transaction does the same to both states. -/
theorem exec_bus_of_heldWords (h : HeldWords s ws) {f : BitVec 44} {t : State} (hx : exec (decode (.bus f)) s = .next t) :
    exec (decode (.bus f)) { s with sched := ws } = .next { t with sched := ws } := by
  rcases decode_bus_cases f with ⟨a, d, hd⟩ | ⟨a, d, hd⟩ <;> rw [hd] at hx ⊢ <;>
    obtain rfl := Host.Outcome.next.inj hx
  · exact congrArg Host.Outcome.next (busRead_of_heldWords h a)
  · exact congrArg Host.Outcome.next (busWrite_of_heldWords h a d)

/-- A host transaction leaves the held words held. -/
theorem heldWords_of_hostFrame {t : State} (hf : HostFrame s t) (h : HeldWords s ws) : HeldWords t ws := by
  intro hv
  have hs : s.status.valid = true := hf.valid ▸ hv
  rw [(hf.locked hs).1, hf.sched]
  exact h hs

theorem activeBlock_length_le_NB (s : State) : (activeBlock s).length ≤ s.cfg.NB :=
  List.length_take_le ..

/-- What reads no word behind the Key Schedule is the same for held words. -/
theorem eq_of_heldWords {engine : List Word → List Word} (hv : s.status.valid = true) (h : HeldWords s ws)
    (htake : ∀ l, engine (l.take s.cfg.words) = engine l) : engine ws = engine s.sched := by
  rw [← htake ws, h hv, htake]

/-- ENCRYPT reads held words only (R105). -/
theorem performEncrypt_of_heldWords (hv : s.status.valid = true) (h : HeldWords s ws) :
    performEncrypt { s with sched := ws } = { performEncrypt s with sched := ws } := by
  have hsame := eq_of_heldWords (engine := (cipher (forwardTable s) · s.cfg.NB s.cfg.NR (activeBlock s))) hv h
    fun l => cipher_take _ l (activeBlock_length_le_NB s)
  exact congrArg (setBlockPrefix · { s with sched := ws }) hsame

/-- DECRYPT reads held words only (R106). -/
theorem performDecrypt_of_heldWords (hv : s.status.valid = true) (h : HeldWords s ws) :
    performDecrypt { s with sched := ws } = { performDecrypt s with sched := ws } := by
  have hsame := eq_of_heldWords (engine := (invCipher (inverseTable s) · s.cfg.NB s.cfg.NR (activeBlock s))) hv h
    fun l => invCipher_take _ l (activeBlock_length_le_NB s)
  exact congrArg (setBlockPrefix · { s with sched := ws }) hsame

/-- EXPAND writes all the words that the Cipher State will hold (R90). -/
theorem performExpand_sameButStaleSchedule (hkey : s.cfg.NK ≤ s.key.length) (hfit : s.cfg.NK ≤ s.cfg.words)
    (hl : ws.length = s.sched.length) :
    SameButStaleSchedule (performExpand s) (performExpand { s with sched := ws }) := by
  have hlen := expand_length (forwardTable s) hkey hfit
  have e (l : List Word) : performExpand { s with sched := l } =
      { performExpand s with sched := expand s.key s.cfg (forwardTable s) ++ l.drop s.cfg.words } := by
    rw [← hlen]; rfl
  rw [e ws, show performExpand s = _ from e s.sched]
  refine ⟨rfl, by simp [hl], fun _ => ?_⟩
  exact (List.take_left' hlen).trans (List.take_left' hlen).symm

/-- The status update of a completion step touches neither VALID nor the schedule (R114). -/
theorem finish_sameButStaleSchedule {t t' : State} (h : SameButStaleSchedule t t') :
    SameButStaleSchedule (finish t) (finish t') := by
  obtain ⟨he, hl, ht⟩ := h
  refine ⟨?_, hl, ht⟩
  rw [he]; rfl

/-- A completion step: EXPAND by its lemma, the engines read held words only, and the other commands neither read nor write
SCHED. -/
theorem complete_sameButStaleSchedule (hi : s.Inv) {op : Opcode} (hp : s.phase = .busy op) (hl : ws.length = s.sched.length)
    (h : HeldWords s ws) : SameButStaleSchedule (complete op s) (complete op { s with sched := ws }) := by
  refine finish_sameButStaleSchedule ?_
  cases op with
  | expand =>
    have hlegal := (hi.expandOk hp).2
    exact performExpand_sameButStaleSchedule (hi.keyLen ▸ hlegal.nk.2) hlegal.nk_le hl
  | encrypt =>
    rw [perform, perform, performEncrypt_of_heldWords (hi.engineOk _ hp rfl) h]
    exact ⟨rfl, hl, h⟩
  | decrypt =>
    rw [perform, perform, performDecrypt_of_heldWords (hi.engineOk _ hp rfl) h]
    exact ⟨rfl, hl, h⟩
  | release => exact ⟨rfl, hl, nofun⟩
  | nop => exact ⟨rfl, hl, h⟩
  | gfmul => exact ⟨rfl, hl, h⟩
  | subwF => exact ⟨rfl, hl, h⟩
  | subwI => exact ⟨rfl, hl, h⟩

end StaleSchedule

/-! ## Keys -/

section Keys

variable {s t t' : State} {f : BitVec 44} {k : List Word} {v : Word}

/-- A read that may show the key, being one in the KEY slot, or R49's free value, being one of a volatile word while BUSY = 1. -/
def KeyOrFreeRead (s : State) (i : Instr) : Prop :=
  ∃ a d, i = .busRd a d ∧
    ((0x040 ≤ 4 * a.toNat ∧ 4 * a.toNat < 0x080) ∨ (s.status.busy = true ∧ VolatileOffset s (4 * a.toNat)))

/-- `t` and `t'` follow from `s` and from `s` with another KEY and `v` on the return path, and the difference is still there only:
the return path is the same, or as it was on either side, unless the key or a free value was read; and the wait is the same unless a
command was accepted (R27, R65). -/
structure KeyConfined (s : State) (v : Word) (reads : Prop) (t t' : State) : Prop where
  others : t' = { t with key := t'.key, rdata := t'.rdata, wait := t'.wait }
  rdata : t'.rdata = t.rdata ∨ (t.rdata = s.rdata ∧ t'.rdata = v) ∨ reads
  wait : t'.wait = t.wait ∨ (s.status.busy = false ∧ t.status.busy = true)

/-- A change that neither reads the key nor touches the return path confines it. -/
theorem keyConfined_of_rdata {reads : Prop} (k' : List Word) (h : t.rdata = s.rdata) :
    KeyConfined s v reads t { t with key := k', rdata := v } :=
  ⟨rfl, .inr (.inl ⟨h, rfl⟩), .inl rfl⟩

/-- Outside the KEY slot the key is not read. -/
theorem readTarget_of_not_key {tg : Target} (h : ∀ j, tg ≠ .key j) :
    readTarget { s with key := k, rdata := v } tg = readTarget s tg := by
  cases tg with
  | key j => exact absurd rfl (h j)
  | _ => rfl

/-- A read shows the key in the KEY slot only, but for a free value. -/
theorem busRead_keyConfined (a : BitVec 11) (d : Word) :
    KeyConfined s v (KeyOrFreeRead s (.busRd a d)) (busRead a s) (busRead a { s with key := k, rdata := v }) := by
  by_cases hfree : s.status.busy = true ∧ (target s.params a).volatile = true
  · rw [busRead, if_pos hfree, busRead, if_pos hfree]
    exact ⟨rfl, .inr (.inr ⟨a, d, rfl, .inr ⟨hfree.1, volatileOffset_of_volatile hfree.2⟩⟩), .inl rfl⟩
  · rw [busRead, if_neg hfree, busRead, if_neg hfree]
    refine ⟨rfl, ?_, .inl rfl⟩
    by_cases hkey : ∃ j, target s.params a = .key j
    · obtain ⟨j, hj⟩ := hkey
      exact .inr (.inr ⟨a, d, rfl, .inl (slot_of_target hj)⟩)
    · exact .inl (readTarget_of_not_key fun j hj => hkey ⟨j, hj⟩)

/-- A write that reaches its target never reads the key; a command's acceptance draws its wait (R84, R149). -/
theorem writeTarget_keyConfined {reads : Prop} (tg : Target) (d : Word) (hb : s.status.busy = false) :
    KeyConfined s v reads (writeTarget tg d s) (writeTarget tg d { s with key := k, rdata := v }) := by
  cases tg with
  | cmd =>
    rw [writeTarget, writeTarget]
    rcases issueCommand_same_answer (s := s) (s' := { s with key := k, rdata := v }) rfl rfl d with
      ⟨op, h1, h2⟩ | ⟨c, h1, h2⟩ <;> rw [h1, h2]
    · exact ⟨rfl, .inr (.inl ⟨rfl, rfl⟩), .inr ⟨hb, rfl⟩⟩
    · exact keyConfined_of_rdata k rfl
  | key j => exact keyConfined_of_rdata (k.set j d) rfl
  | _ => exact keyConfined_of_rdata k rfl

/-- A write is dropped alike, or reaches its target. -/
theorem busWrite_keyConfined {reads : Prop} (a : BitVec 11) (d : Word) :
    KeyConfined s v reads (busWrite a d s) (busWrite a d { s with key := k, rdata := v }) := by
  unfold busWrite
  rcases hb : s.status.busy with _ | _
  · rw [whenNotBusy_of_idle _ hb, whenNotBusy_of_idle _ (s := { s with key := k, rdata := v }) hb, writeUnlocked, writeUnlocked]
    split_ifs
    · exact keyConfined_of_rdata k rfl
    · exact writeTarget_keyConfined _ d hb
  · rw [whenNotBusy_of_busy _ hb, whenNotBusy_of_busy _ (s := { s with key := k, rdata := v }) hb]
    exact keyConfined_of_rdata k rfl

/-- A host transaction confines the key. -/
theorem exec_bus_keyConfined (hx : exec (decode (.bus f)) s = .next t)
    (hx' : exec (decode (.bus f)) { s with key := k, rdata := v } = .next t') :
    KeyConfined s v (KeyOrFreeRead s (decode (.bus f))) t t' := by
  rcases decode_bus_cases f with ⟨a, d, hd⟩ | ⟨a, d, hd⟩ <;> rw [hd] at hx hx' ⊢ <;>
    obtain rfl := Host.Outcome.next.inj hx <;> obtain rfl := Host.Outcome.next.inj hx'
  · exact busRead_keyConfined a d
  · exact busWrite_keyConfined a d

/-- No completion step but EXPAND's reads the key (R27). -/
theorem complete_keyConfined {reads : Prop} {op : Opcode} (h : op ≠ .expand) :
    KeyConfined s v reads (complete op s) (complete op { s with key := k, rdata := v }) := by
  cases op with
  | expand => exact absurd rfl h
  | _ => exact keyConfined_of_rdata k rfl

end Keys

/-! ## The obligations -/

/-- Settles O40: both states make the same move; host transactions and the completion steps but EXPAND's confine the key, and a
reset clears it. -/
theorem keyReachesOnlyExpandAndKeyReads : Obligations.KeyReachesOnlyExpandAndKeyReads := by
  intro s t t' k v hexp hs hs'
  rcases step_same_move (s := s) (s' := { s with key := k, rdata := v }) rfl rfl rfl hs hs' with
    ⟨op, hdue, rfl, rfl⟩ | ⟨f, rest, hin, hx, hx'⟩ | ⟨rest, rfl, rfl⟩ | ⟨rfl, rfl⟩
  · have hne : op ≠ .expand := by
      rintro rfl
      obtain ⟨hwait, hin⟩ := hexp hdue.1
      rcases hdue.2 with h | h
      · exact hwait.ne' h
      · exact hin h
    obtain ⟨ho, hr, hw⟩ : KeyConfined s v False _ _ := complete_keyConfined (k := k) hne
    exact ⟨ho, hr.imp_right (.imp_right False.elim), hw⟩
  · obtain ⟨ho, hr, hw⟩ := exec_bus_keyConfined (s := takeInput rest s) hx hx'
    refine ⟨ho, hr.imp_right (.imp_right fun ⟨a, d, hd, h⟩ => ⟨f, a, d, rest, hin, hd, h⟩), hw⟩
  · exact ⟨rfl, .inr (.inl ⟨rfl, rfl⟩), .inl rfl⟩
  · exact ⟨rfl, .inr (.inl ⟨rfl, rfl⟩), .inl rfl⟩

/-- Settles O41: both states make the same move; a host transaction is blind to words that are not held, a completion step is
`complete_sameButStaleSchedule`, and a reset draws SCHED by its number. -/
theorem staleScheduleIsUnobservable : Obligations.StaleScheduleIsUnobservable := by
  intro s s' t t' hi ⟨he, hl, hheld⟩ hs hs'
  generalize s'.sched = ws at he hl hheld
  subst he
  rcases step_same_move (s := s) (s' := { s with sched := ws }) rfl rfl rfl hs hs' with
    ⟨op, hdue, rfl, rfl⟩ | ⟨f, rest, -, hx, hx'⟩ | ⟨rest, rfl, rfl⟩ | ⟨rfl, rfl⟩
  · exact complete_sameButStaleSchedule hi hdue.1 hl hheld
  · have hframe := exec_bus_hostFrame hx
    have hsame := exec_bus_of_heldWords (s := takeInput rest s) hheld hx
    obtain rfl : { t with sched := ws } = t' := Host.Outcome.next.inj (hsame.symm.trans hx')
    exact ⟨rfl, hl.trans (congrArg List.length hframe.sched).symm, heldWords_of_hostFrame hframe hheld⟩
  · exact ⟨rfl, rfl, nofun⟩
  · exact ⟨rfl, hl, hheld⟩

end Sys2Proof.Machine
end

section
/-! PROOFS. The commands: acceptance or rejection at issue (R113, R124), the completion step of an accepted command and what it
writes (R114, R115, R80 to R82, R90 to R92, R105, R106), and completion after the LATENCY (R116, R118). -/

namespace Sys2Proof.Machine

open Sys2Proof.Statements

/-! ## Issue -/

section Issue

variable {s : State}

/-- A command while BUSY = 0 is issued (R113). -/
theorem exec_command_of_idle (op : Opcode) (hb : s.status.busy = false) :
    exec (instrOfOp op) s = .next (issueOp op s) := by
  rw [exec_instrOfOp, whenNotBusy_of_idle _ hb]

/-- The instruction of a word that names a command (R67). -/
theorem decode_cmd_of_decodeOp {v : Word} {op : Opcode} (h : decodeOp v = some op) : decode (.cmd v) = instrOfOp op := by
  simp only [decode, decodeCmd, h]

/-- An acceptance is one in the words of the statements, whatever LATENCY it draws. -/
theorem acceptedAs_accept (op : Opcode) (s : State) : AcceptedAs op s (accept op s) := ⟨_, rfl⟩

/-- With a Cipher State a command that needs one is accepted (R113). -/
theorem acceptIfValid_of_valid (op : Opcode) (hv : s.status.valid = true) : acceptIfValid op s = accept op s := if_pos hv

/-- Without one it is rejected with NO_SCHEDULE (R113). -/
theorem exec_of_no_schedule {op : Opcode} (hissue : issueOp op s = acceptIfValid op s) (hb : s.status.busy = false)
    (hv : s.status.valid = false) : exec (instrOfOp op) s = .next (rejectedWith 0x3#4 s) := by
  rw [exec_command_of_idle op hb, hissue, acceptIfValid, if_neg (by simp [hv])]
  rfl

/-! The four answers of EXPAND's checks, in their order (R91). -/

theorem expandCheck_of_valid (hv : s.status.valid = true) : expandCheck s = some .schedulePresent := if_pos hv

theorem expandCheck_of_badConfig (hv : s.status.valid = false) (hbad : BadConfig s) : expandCheck s = some .badConfig := by
  rw [expandCheck, if_neg (by simp [hv])]
  exact if_pos hbad

theorem expandCheck_of_noSpace (hv : s.status.valid = false) (hgood : ¬BadConfig s)
    (hspace : s.params.schedWords < s.cfg.words) : expandCheck s = some .noSpace := by
  rw [expandCheck, if_neg (by simp [hv])]
  exact (if_neg hgood).trans (if_pos hspace)

theorem cfg_legal_of_not_badConfig (hgood : ¬BadConfig s) (hfits : s.cfg.words ≤ s.params.schedWords) :
    s.cfg.Legal s.params := by
  simp only [BadConfig, not_or, not_lt] at hgood
  obtain ⟨hk, hkmax, hb, hbmax, hr, hkw⟩ := hgood
  exact ⟨⟨hk, hkmax⟩, ⟨hb, hbmax⟩, hr, hkw, hfits⟩

/-- EXPAND is rejected with the code of the first check that fails (R91). -/
theorem exec_expand_of_check {c : ErrCode} (hb : s.status.busy = false) (hc : expandCheck s = some c) :
    exec .expand s = .next (rejectedWith (errCode c) s) := by
  have hissue : issueExpand s = reject c s := by simp [issueExpand, hc]
  exact (exec_command_of_idle .expand hb).trans (congrArg _ hissue)

end Issue

/-! ## Completion -/

section Completion

variable {s : State} {op : Opcode}

/-- An accepted command runs: its completion step, whatever is pending, is its work and the status update (R113, R114). -/
theorem runs_of_accept (hb : s.status.busy = false) (ha : issueOp op s = accept op s) :
    Runs (instrOfOp op) op s (perform op s) := by
  refine ⟨accept op s, (exec_command_of_idle op hb).trans (congrArg _ ha), acceptedAs_accept op s, fun ins => ?_⟩
  rw [step_of_due (op := op) ⟨rfl, .inl rfl⟩]
  cases op <;> rfl

/-- With a Cipher State, so does a command that needs one. -/
theorem runs_of_valid (hissue : issueOp op s = acceptIfValid op s) (hb : s.status.busy = false)
    (hv : s.status.valid = true) : Runs (instrOfOp op) op s (perform op s) :=
  runs_of_accept hb (hissue.trans (acceptIfValid_of_valid op hv))

/-- Replacing the first words of a list by as many words as it has there leaves the words behind NB (R105, R106). -/
theorem setBlockPrefix_activeBlock {ws : List Word} (h : ws.length = (activeBlock s).length) :
    setBlockPrefix ws s = { s with block := ws ++ s.block.drop s.cfg.NB } := by
  have hdrop : s.block.drop ws.length = s.block.drop s.cfg.NB := by
    rw [h, activeBlock, List.length_take]
    rcases le_total s.cfg.NB s.block.length with hle | hle
    · rw [min_eq_left hle]
    · rw [min_eq_right hle, List.drop_length, List.drop_of_length_le hle]
  rw [setBlockPrefix, hdrop]

/-- `u` is `c` but for BUSYERR, the return path and the model's own fields. -/
def SameButBusyErr (c u : State) : Prop :=
  u = { c with status := { c.status with busyErr := u.status.busyErr }, inputs := u.inputs, wait := u.wait, rdata := u.rdata,
               draws := u.draws }

theorem SameButBusyErr.trans {c u w : State} (h : SameButBusyErr c u) (h' : SameButBusyErr u w) : SameButBusyErr c w := by
  unfold SameButBusyErr at h h' ⊢
  rw [h', h]

/-- No command's work reads BUSYERR, the return path or a field of the model's own. -/
theorem complete_sameButBusyErr (op : Opcode) (s : State) (e : Bool) (ins : List Input) (w n : Nat) (v : Word) :
    SameButBusyErr (complete op s)
      (complete op { s with status := { s.status with busyErr := e }, inputs := ins, wait := w, rdata := v, draws := n }) := by
  cases op <;> rfl

theorem complete_inputs (op : Opcode) (s : State) : (complete op s).inputs = s.inputs := by cases op <;> rfl

/-- The first step of a run of any machine. -/
theorem coreRun_succ_of_step {M : Host.Core} {x y : M.State} (n : Nat) (h : M.step x = .next y) :
    M.run (n + 1) x = M.run n y := by
  rw [Host.Core.run, h]

/-- The first step of a run. -/
theorem run_succ_of_step {t : State} (n : Nat) (h : step s = .next t) : core.run (n + 1) s = core.run n t :=
  coreRun_succ_of_step (M := core) n h

/-- A due completion step ends the run. -/
theorem run_of_due (h : Due s op) : core.run 1 s = .next (complete op s) :=
  run_succ_of_step 0 (step_of_due h)

/-- A host transaction while BUSY = 1 leaves the completion step's results as they will be (R38 item 3, R116). -/
theorem step_before_completion {f : BitVec 44} {rest : List Input} (hb : s.status.busy = true)
    (hin : s.inputs = .bus f :: rest) (hw : 0 < s.wait) :
    ∃ t, step s = .next t ∧ t.status.busy = true ∧ t.phase = s.phase ∧ t.inputs = rest ∧ t.wait = s.wait - 1 ∧
      SameButBusyErr (complete op s) (complete op t) := by
  obtain ⟨t, ht, he, -⟩ := busyHostStepOnlySetsBusyerr (takeInput rest s) f hb
  refine ⟨t, (step_of_bus hin (.inr hw)).trans ht, ?_⟩
  generalize t.status.busyErr = e, t.rdata = v, t.draws = n at he
  subst he
  exact ⟨hb, rfl, rfl, rfl, complete_sameButBusyErr op s e rest (s.wait - 1) n v⟩

/-- The completion comes after the transactions that LATENCY still counts, or when none is pending (R118). -/
theorem run_completes (hb : s.status.busy = true) (hp : s.phase = .busy op) (hrst : ∀ x ∈ s.inputs.take s.wait, x ≠ .rst) :
    ∃ u, core.run (min s.wait s.inputs.length + 1) s = .next u ∧ u.inputs = s.inputs.drop s.wait ∧
      SameButBusyErr (complete op s) u := by
  induction hw : s.wait generalizing s with
  | zero =>
    rw [Nat.zero_min]
    exact ⟨_, run_of_due ⟨hp, .inl hw⟩, complete_inputs op s, rfl⟩
  | succ w ih =>
    cases hin : s.inputs with
    | nil => exact ⟨_, run_of_due ⟨hp, .inr hin⟩, (complete_inputs op s).trans hin, rfl⟩
    | cons x rest =>
      rw [hin, hw, List.take_succ_cons] at hrst
      obtain ⟨f, rfl⟩ : ∃ f, x = .bus f := by
        cases x with
        | bus f => exact ⟨f, rfl⟩
        | rst => exact absurd rfl (hrst .rst List.mem_cons_self)
      obtain ⟨t, ht, hbt, hpt, hit, hwt, hsame⟩ := step_before_completion (op := op) hb hin (by omega)
      have hwt' : t.wait = w := by omega
      have hrst' : ∀ x ∈ t.inputs.take t.wait, x ≠ .rst := by
        rw [hit, hwt']
        exact fun x hx => hrst x (List.mem_cons_of_mem _ hx)
      obtain ⟨u, hu, huin, hud⟩ := ih hbt (hpt.trans hp) hrst' hwt'
      refine ⟨u, ?_, ?_, hsame.trans hud⟩
      · rw [List.length_cons, Nat.add_min_add_right, run_succ_of_step _ ht, ← hit]
        exact hu
      · rw [huin, hit, List.drop_succ_cons]

end Completion

/-! ## The obligations -/

/-- Settles O16: a word that names a command has `issueOp`'s two answers, and any other is rejected with ILLEGAL_CMD. -/
theorem commandIsAcceptedOrRejected : Obligations.CommandIsAcceptedOrRejected := by
  intro s v hb
  refine ⟨issueCommand v s, by rw [exec_decode_cmd, whenNotBusy_of_idle _ hb], ?_⟩
  rcases issueCommand_accepts_or_rejects v s with ⟨op, hop, e⟩ | ⟨c, hc, e⟩ <;> rw [e]
  · exact .inl ⟨op, decode_cmd_of_decodeOp hop, acceptedAs_accept op s⟩
  · exact .inr ⟨errCode c, one_le_errCode hc, errCode_le_five c, rfl⟩

/-- Settles O17: NOP is accepted whenever it is not dropped; DONE, and with it the interrupt, is 0 at acceptance and 1 at
completion. -/
theorem nopRuns : Obligations.NopRuns := by
  refine ⟨rfl, fun s => ⟨fun hb => busyDropsEveryHostWrite s .nop hb nofun, fun hb => ?_⟩⟩
  have hruns : Runs .nop .nop s s := runs_of_accept (op := .nop) hb rfl
  obtain ⟨t, ht, ⟨n, rfl⟩, hc⟩ := id hruns
  exact ⟨hruns, _, _, ht, by simp [irq], hc, by simp [irq]⟩

/-- Settles O18: GFMUL is accepted without a check. -/
theorem gfmulRuns : Obligations.GfmulRuns :=
  ⟨rfl, fun _ hb => runs_of_accept (op := .gfmul) hb rfl⟩

/-- Settles O19: SUBW_F is accepted without a check. -/
theorem subwForwardRuns : Obligations.SubwForwardRuns :=
  ⟨rfl, fun _ hb => runs_of_accept (op := .subwF) hb rfl⟩

/-- Settles O20: SUBW_I is accepted without a check. -/
theorem subwInverseRuns : Obligations.SubwInverseRuns :=
  ⟨rfl, fun _ hb => runs_of_accept (op := .subwI) hb rfl⟩

/-- Settles O21: the checks in their order; where all pass, CFG is legal and the expansion has NB*(NR+1) words. -/
theorem expandRunsOrIsRejected : Obligations.ExpandRunsOrIsRejected := by
  refine ⟨rfl, fun s hb => ⟨fun hv => ?_, fun hv hbad => ?_, fun hv hgood hspace => ?_, fun hi hv hgood hfits => ?_⟩⟩
  · exact exec_expand_of_check hb (expandCheck_of_valid hv)
  · exact exec_expand_of_check hb (expandCheck_of_badConfig hv hbad)
  · exact exec_expand_of_check hb (expandCheck_of_noSpace hv hgood hspace)
  · have hl : s.cfg.Legal s.params := cfg_legal_of_not_badConfig hgood hfits
    have hcheck : expandCheck s = none := (expandCheck_eq_none s).2 ⟨hv, hl⟩
    have hlen : (expand s.key s.cfg (forwardTable s)).length = s.cfg.nb.toNat * (s.cfg.nr.toNat + 1) :=
      expand_length _ (hi.keyLen ▸ hl.nk.2) hl.nk_le
    rw [← hlen]
    exact runs_of_accept (op := .expand) hb (by simp [issueOp, issueExpand, hcheck])

/-- Settles O22: RELEASE needs a Cipher State, and clears VALID. -/
theorem releaseRunsOrIsRejected : Obligations.ReleaseRunsOrIsRejected :=
  ⟨rfl, fun _ hb => ⟨exec_of_no_schedule (op := .release) rfl hb, runs_of_valid (op := .release) rfl hb⟩⟩

/-- Settles O23: ENCRYPT needs a Cipher State, and Cipher keeps the number of words. -/
theorem encryptRunsOrIsRejected : Obligations.EncryptRunsOrIsRejected := by
  refine ⟨rfl, fun s hb => ⟨exec_of_no_schedule (op := .encrypt) rfl hb, fun hv => ?_⟩⟩
  have hruns := runs_of_valid (op := .encrypt) rfl hb hv
  rw [perform, performEncrypt, setBlockPrefix_activeBlock (cipher_length ..)] at hruns
  exact hruns

/-- Settles O24: DECRYPT needs a Cipher State, and InvCipher keeps the number of words. -/
theorem decryptRunsOrIsRejected : Obligations.DecryptRunsOrIsRejected := by
  refine ⟨rfl, fun s hb => ⟨exec_of_no_schedule (op := .decrypt) rfl hb, fun hv => ?_⟩⟩
  have hruns := runs_of_valid (op := .decrypt) rfl hb hv
  rw [perform, performDecrypt, setBlockPrefix_activeBlock (invCipher_length ..)] at hruns
  exact hruns

/-- Settles O38: `run_completes`. -/
theorem commandCompletesAfterItsLatency : Obligations.CommandCompletesAfterItsLatency :=
  fun _ _ hb hp hrst => run_completes hb hp hrst

end Sys2Proof.Machine
end

section
/-! PROOFS. GF(2^8): multiplication is linear over XOR in each factor, so that an identity between products need only be checked
on single bits (R73 to R75); the inverse and the S-boxes (R30, R31); and substitution lane by lane (R77, R82). -/

namespace Sys2Proof.Machine

/-! ## Linearity over XOR -/

/-- Every word is an XOR of single bits. -/
theorem xor_induction {w : Nat} {P : BitVec w → Prop} (zero : P 0#w) (bit : ∀ i < w, P (BitVec.twoPow w i))
    (xor : ∀ x y, P x → P y → P (x ^^^ y)) (x : BitVec w) : P x := by
  have lowBits : ∀ n ≤ w, P ((x.setWidth n).setWidth w) := by
    intro n
    induction n with
    | zero =>
      have hnone : x.setWidth 0 = 0#0 := BitVec.of_length_zero
      simpa [hnone] using zero
    | succ n ih =>
      intro hn
      have hsplit : (x.setWidth (n + 1)).setWidth w =
          (x.setWidth n).setWidth w ^^^ (if x.getLsbD n then BitVec.twoPow w n else 0#w) := by
        refine BitVec.eq_of_getLsbD_eq fun i hi => ?_
        split_ifs with hbit
        · simp only [BitVec.getLsbD_xor, BitVec.getLsbD_setWidth, BitVec.getLsbD_twoPow]
          grind
        · simp only [BitVec.getLsbD_xor, BitVec.getLsbD_setWidth, BitVec.getLsbD_zero]
          grind
      rw [hsplit]
      refine xor _ _ (ih (by omega)) ?_
      split_ifs
      · exact bit n hn
      · exact zero
  simpa using lowBits w le_rfl

/-- A function of words that takes XOR to XOR. -/
def XorLinear {m n : Nat} (f : BitVec m → BitVec n) : Prop := ∀ x y, f (x ^^^ y) = f x ^^^ f y

namespace XorLinear

variable {l m n : Nat} {f g : BitVec m → BitVec n}

theorem zero (hf : XorLinear f) : f 0#m = 0#n := by
  have h := hf 0#m 0#m
  rwa [BitVec.xor_self, BitVec.xor_self] at h

theorem comp {h : BitVec l → BitVec m} (hf : XorLinear f) (hh : XorLinear h) : XorLinear fun x => f (h x) :=
  fun x y => (congrArg f (hh x y)).trans (hf _ _)

theorem xor (hf : XorLinear f) (hg : XorLinear g) : XorLinear fun x => f x ^^^ g x :=
  fun x y => by
    simp only [hf x y, hg x y]
    ac_rfl

/-- Two linear functions that agree on the single bits agree everywhere. -/
theorem ext (hf : XorLinear f) (hg : XorLinear g) (h : ∀ i < m, f (BitVec.twoPow m i) = g (BitVec.twoPow m i)) (x : BitVec m) :
    f x = g x := by
  induction x using xor_induction with
  | zero => rw [hf.zero, hg.zero]
  | bit i hi => exact h i hi
  | xor x y hx hy => rw [hf, hg, hx, hy]

end XorLinear

/-- A mask by a bit is linear in the bit. -/
theorem ite_xor_bit {n : Nat} (p q : Bool) (a : BitVec n) :
    (if p ^^ q then a else 0#n) = (if p then a else 0#n) ^^^ (if q then a else 0#n) := by
  cases p <;> cases q <;> simp

/-- Adding a term where a bit is set is adding the masked term. -/
theorem ite_xor_else {n : Nat} (p : Bool) (x a : BitVec n) : (if p then x ^^^ a else x) = x ^^^ (if p then a else 0#n) := by
  cases p <;> simp

theorem doubleMod_eq (a : Byte) : doubleMod a = (a <<< 1) ^^^ (if a.getLsbD 7 then 0x1B#8 else 0x00#8) :=
  ite_xor_else ..

/-- Doubling is linear: the shift is, and so is the fold of the bit shifted out (R73). -/
theorem doubleMod_linear : XorLinear doubleMod := by
  intro a b
  simp only [doubleMod_eq, BitVec.shiftLeft_xor_distrib, BitVec.getLsbD_xor, ite_xor_bit]
  ac_rfl

/-! ## The loop of multiply -/

theorem multiplyLoop_zero_left (n : Nat) (b p : Byte) : multiplyLoop n 0#8 b p = p := by
  cases n <;> simp [multiplyLoop]

theorem multiplyLoop_zero_right (n : Nat) (a p : Byte) : multiplyLoop n a 0#8 p = p := by
  cases n <;> simp [multiplyLoop]

/-- A turn of the loop, its early exit included: once a factor is 0 the turns add nothing (R73). -/
theorem multiplyLoop_succ (n : Nat) (a b p : Byte) :
    multiplyLoop (n + 1) a b p = multiplyLoop n (doubleMod a) (b >>> 1) (p ^^^ if b.getLsbD 0 then a else 0#8) := by
  rw [← ite_xor_else, multiplyLoop]
  split_ifs with hzero hbit hbit
  · rcases hzero with rfl | rfl
    · rw [BitVec.xor_zero, doubleMod_linear.zero, multiplyLoop_zero_left]
    · simp at hbit
  · rcases hzero with rfl | rfl
    · rw [doubleMod_linear.zero, multiplyLoop_zero_left]
    · rw [BitVec.zero_ushiftRight, multiplyLoop_zero_right]
  · rfl
  · rfl

/-- The loop adds up: its products for two multipliers, or for two multiplicands, are the product for their XOR. -/
theorem multiplyLoop_xor_right (n : Nat) (a b c p q : Byte) :
    multiplyLoop n a (b ^^^ c) (p ^^^ q) = multiplyLoop n a b p ^^^ multiplyLoop n a c q := by
  induction n generalizing a b c p q with
  | zero => rfl
  | succ n ih =>
    simp only [multiplyLoop_succ, ← ih, BitVec.ushiftRight_xor_distrib, BitVec.getLsbD_xor, ite_xor_bit]
    congr 1
    ac_rfl

theorem multiplyLoop_xor_left (n : Nat) (a a' b p q : Byte) :
    multiplyLoop n (a ^^^ a') b (p ^^^ q) = multiplyLoop n a b p ^^^ multiplyLoop n a' b q := by
  induction n generalizing a a' b p q with
  | zero => rfl
  | succ n ih =>
    have hmask : (if b.getLsbD 0 then a ^^^ a' else 0#8) =
        (if b.getLsbD 0 then a else 0#8) ^^^ (if b.getLsbD 0 then a' else 0#8) := by
      split_ifs <;> simp
    simp only [multiplyLoop_succ, ← ih, doubleMod_linear a a', hmask]
    congr 1
    ac_rfl

/-- Multiplication is linear in either factor (R75: it distributes over XOR). -/
theorem multiply_linear_right (a : Byte) : XorLinear (multiply a ·) := fun b c => multiplyLoop_xor_right 8 a b c 0#8 0#8

theorem multiply_linear_left (b : Byte) : XorLinear (multiply · b) := fun a a' => multiplyLoop_xor_left 8 a a' b 0#8 0#8

/-! ## The field laws, on single bits -/

theorem multiply_zero (x : Byte) : multiply x 0x00#8 = 0x00#8 := (multiply_linear_right x).zero

theorem multiply_one (x : Byte) : multiply x 0x01#8 = x :=
  (multiply_linear_left 0x01#8).ext (g := id) (fun _ _ => rfl) (by decide) x

theorem multiply_comm (a b : Byte) : multiply a b = multiply b a := by
  refine (multiply_linear_left b).ext (multiply_linear_right b) (fun i hi => ?_) a
  refine (multiply_linear_right _).ext (multiply_linear_left _) (fun j hj => ?_) b
  revert i j
  decide

theorem multiply_assoc (a b c : Byte) : multiply (multiply a b) c = multiply a (multiply b c) := by
  refine ((multiply_linear_left c).comp (multiply_linear_left b)).ext (multiply_linear_left _) (fun i hi => ?_) a
  refine ((multiply_linear_left c).comp (multiply_linear_right _)).ext ((multiply_linear_right _).comp (multiply_linear_left c))
    (fun j hj => ?_) b
  refine (multiply_linear_right _).ext ((multiply_linear_right _).comp (multiply_linear_right _)) (fun k hk => ?_) c
  revert i j k
  decide +kernel

/-! ## Inverses and the S-boxes -/

/-- The affine map of R30. -/
def affineMap (b : Byte) : Byte :=
  b ^^^ b.rotateLeft 1 ^^^ b.rotateLeft 2 ^^^ b.rotateLeft 3 ^^^ b.rotateLeft 4 ^^^ 0x63#8

/-- The byte whose affine image SBOX lists at `x`: the affine map is undone by three rotations and 0x05. -/
def fieldInverse (x : Byte) : Byte :=
  (sbox x).rotateLeft 1 ^^^ (sbox x).rotateLeft 3 ^^^ (sbox x).rotateLeft 6 ^^^ 0x05#8

/-- It is the inverse of every nonzero byte under multiply (R30, R75). -/
theorem multiply_fieldInverse : ∀ x, x ≠ 0x00#8 → multiply x (fieldInverse x) = 0x01#8 := by decide +kernel

theorem fieldInverse_zero : fieldInverse 0x00#8 = 0x00#8 := by decide

theorem affineMap_fieldInverse : ∀ x, affineMap (fieldInverse x) = sbox x := by decide +kernel

/-- A byte has at most one inverse: z = z(xy) = (zx)y = y. -/
theorem inverse_unique {x y z : Byte} (hy : multiply x y = 0x01#8) (hz : multiply x z = 0x01#8) : z = y := by
  calc z
    _ = multiply z (multiply x y) := by rw [hy, multiply_one]
    _ = multiply (multiply x z) y := by rw [← multiply_assoc, multiply_comm z x]
    _ = y := by rw [hz, multiply_comm, multiply_one]

theorem invSbox_sbox : ∀ x, invSbox (sbox x) = x := by decide +kernel

theorem sbox_invSbox : ∀ x, sbox (invSbox x) = x := by decide +kernel

/-! ## Substitution -/

/-- Lane k of a substituted word is lane k through the table (R77). -/
theorem lane_substituteWord (t : Byte → Byte) (w : Word) {k : Nat} (hk : k < 4) :
    lane (substituteWord t w) k = t (lane w k) := by
  interval_cases k
  · exact lane_ofLanes_zero ..
  · exact lane_ofLanes_one ..
  · exact lane_ofLanes_two ..
  · exact lane_ofLanes_three ..

/-- A table that undoes another undoes it on words (R82). -/
theorem substituteWord_substituteWord {f g : Byte → Byte} (h : ∀ x, g (f x) = x) (w : Word) :
    substituteWord g (substituteWord f w) = w := by
  have hlane (k : Nat) (hk : k < 4) : lane (substituteWord g (substituteWord f w)) k = lane w k := by
    rw [lane_substituteWord g _ hk, lane_substituteWord f _ hk, h]
  exact word_ext (hlane 0 (by decide)) (hlane 1 (by decide)) (hlane 2 (by decide)) (hlane 3 (by decide))

/-! ## The obligations -/

/-- Settles O42: linearity leaves the laws to be checked on single bits, and the inverse is read off SBOX. -/
theorem multiplyIsFieldMultiplication : Obligations.MultiplyIsFieldMultiplication :=
  ⟨multiply_zero, multiply_one, multiply_comm, multiply_assoc, multiply_linear_right,
    fun x hx => ⟨fieldInverse x, multiply_fieldInverse x hx, fun _ hz => inverse_unique (multiply_fieldInverse x hx) hz⟩⟩

/-- Settles O43: multiplying by 2 is one turn of the loop that only doubles, and one that adds the doubled byte. -/
theorem xtimeDoubles : Obligations.XtimeDoubles := by
  intro a
  refine ⟨rfl, ?_⟩
  calc xtime a
    _ = multiplyLoop 6 (doubleMod (doubleMod a)) 0#8 (0#8 ^^^ 0#8 ^^^ doubleMod a) := by
      rw [xtime, multiply, multiplyLoop_succ, multiplyLoop_succ]; rfl
    _ = doubleMod a := by rw [multiplyLoop_zero_right, BitVec.zero_xor, BitVec.zero_xor]
    _ = _ := doubleMod_eq a

/-- Settles O44: both compositions are evaluated for every byte. -/
theorem standardTablesAreMutualInverses : Obligations.StandardTablesAreMutualInverses :=
  ⟨invSbox_sbox, sbox_invSbox⟩

/-- Settles O45: inverses are unique, so the byte is the one whose affine image SBOX lists. -/
theorem sboxIsAffineMapOfInverse : Obligations.SboxIsAffineMapOfInverse := by
  intro x b h
  have hb : b = fieldInverse x := by
    rcases h with ⟨rfl, rfl⟩ | h
    · exact fieldInverse_zero.symm
    · have hx : x ≠ 0x00#8 := by
        rintro rfl
        rw [multiply_comm, multiply_zero] at h
        cases h
      exact inverse_unique (multiply_fieldInverse x hx) h
  rw [hb]
  exact (affineMap_fieldInverse x).symm

/-- Settles O46: the lanes one by one. -/
theorem substituteWordIsLanewise : Obligations.SubstituteWordIsLanewise :=
  ⟨fun t w _ hk => lane_substituteWord t w hk, fun _ _ h w => substituteWord_substituteWord h w⟩

end Sys2Proof.Machine
end

section
/-! PROOFS. The inverse round engine: InvShiftRows and InvMixColumns undo the forward operations (R99, R101), InvCipher is its
rounds in reverse (R104), and the two engines undo each other (R107, R108), on the machine too. -/

namespace Sys2Proof.Machine

open Sys2Proof.Statements

/-! ## Blocks by their cells -/

section Blocks

variable {s t : List Word} {c r : Nat}

/-- Two blocks with as many columns and the same cells are equal (R97). -/
theorem block_ext (hlen : s.length = t.length) (h : ∀ r c, r < 4 → c < s.length → cell s r c = cell t r c) : s = t := by
  refine List.ext_getElem hlen fun c hs ht => ?_
  have hcol (r : Nat) (hr : r < 4) : lane s[c] r = lane t[c] r := by
    simpa [cell, List.getD, hs, ht] using h r c hr hs
  exact word_ext (hcol 0 (by decide)) (hcol 1 (by decide)) (hcol 2 (by decide)) (hcol 3 (by decide))

theorem cell_shiftRows (hr : r < 4) (hc : c < s.length) : cell (shiftRows s) r c = cell s r ((c + r) % s.length) :=
  lane_shiftRows hr hc

/-- InvShiftRows moves cell (r, (c - r) mod NB) to (r, c), row by row (R99). -/
theorem cell_invShiftRows (hr : r < 4) (hc : c < s.length) :
    cell (invShiftRows s) r c = cell s r (colBefore s.length c r) := by
  have hcol : (invShiftRows s).getD c 0#32 = _ := map_range_getD _ hc
  rw [cell, hcol]
  interval_cases r
  · have h0 : colBefore s.length c 0 = c := by simp [colBefore, Nat.mod_eq_of_lt hc]
    rw [lane_ofLanes_zero, h0]
  · exact lane_ofLanes_one ..
  · exact lane_ofLanes_two ..
  · exact lane_ofLanes_three ..

theorem cell_substituteBlock (f : Byte → Byte) (hr : r < 4) (hc : c < s.length) :
    cell (substituteBlock f s) r c = f (cell s r c) := by
  simp only [cell, substituteBlock, List.getD, List.getElem?_map, List.getElem?_eq_getElem hc, Option.map_some, Option.getD_some]
  exact lane_substituteWord f _ hr

end Blocks

/-! ## The rotations of the rows -/

section Rotation

variable {n c r : Nat}

/-- The column of R99, (c - r) mod NB with a result in 0..NB-1. -/
theorem natCast_colBefore (hn : 0 < n) : (colBefore n c r : Int) = ((c : Int) - r) % n := by
  have hr : (r : Int) = n * (r / n : Nat) + (r % n : Nat) := by exact_mod_cast (Nat.div_add_mod r n).symm
  have hle : r % n ≤ n := (Nat.mod_lt r hn).le
  calc (colBefore n c r : Int)
    _ = ((c : Int) + (n - (r % n : Nat))) % n := by rw [colBefore, Int.natCast_mod, Nat.cast_add, Nat.cast_sub hle]
    _ = ((c : Int) - r + n * (1 + (r / n : Nat))) % n := by rw [hr]; ring_nf
    _ = ((c : Int) - r) % n := Int.add_mul_emod_self_left ..

theorem colBefore_lt (hn : 0 < n) : colBefore n c r < n := Nat.mod_lt _ hn

/-- The column r after the column r before, modulo NB, is the column itself. -/
theorem colBefore_add_mod (hc : c < n) : (colBefore n c r + r) % n = c := by
  have hn : 0 < n := by omega
  zify
  rw [natCast_colBefore hn, Int.emod_add_emod, sub_add_cancel]
  exact_mod_cast Nat.mod_eq_of_lt hc

/-- The column r before the column r after, modulo NB, is the column itself. -/
theorem colBefore_mod (hc : c < n) : colBefore n ((c + r) % n) r = c := by
  have hn : 0 < n := by omega
  zify
  rw [natCast_colBefore hn, Int.natCast_mod, Int.emod_sub_emod, Nat.cast_add, add_sub_cancel_right]
  exact_mod_cast Nat.mod_eq_of_lt hc

variable (s : List Word)

theorem invShiftRows_shiftRows : invShiftRows (shiftRows s) = s := by
  refine block_ext (by simp) fun r c hr hc => ?_
  rw [invShiftRows_length] at hc
  have hlt : c < s.length := by simpa using hc
  rw [cell_invShiftRows hr hc, shiftRows_length, cell_shiftRows hr (colBefore_lt (by omega)), colBefore_add_mod hlt]

theorem shiftRows_invShiftRows : shiftRows (invShiftRows s) = s := by
  refine block_ext (by simp) fun r c hr hc => ?_
  rw [shiftRows_length] at hc
  have hlt : c < s.length := by simpa using hc
  rw [cell_shiftRows hr hc, invShiftRows_length, cell_invShiftRows hr (Nat.mod_lt _ (by omega)), colBefore_mod hlt]

/-- The rotation moves cells and the substitution acts on each alone, so their order does not matter (R104). -/
theorem invShiftRows_substituteBlock (f : Byte → Byte) :
    invShiftRows (substituteBlock f s) = substituteBlock f (invShiftRows s) := by
  refine block_ext (by simp) fun r c hr hc => ?_
  have hlt : c < s.length := by simpa using hc
  rw [cell_invShiftRows hr (by simpa using hlt), substituteBlock_length,
    cell_substituteBlock f hr (colBefore_lt (by omega)), cell_substituteBlock f hr (by simpa using hlt),
    cell_invShiftRows hr hlt]

end Rotation

/-! ## The matrices -/

/-- XOR of words is XOR of their lanes. -/
theorem ofLanes_xor (a b c d a' b' c' d' : Byte) :
    ofLanes (a ^^^ a') (b ^^^ b') (c ^^^ c') (d ^^^ d') = ofLanes a b c d ^^^ ofLanes a' b' c' d' := by
  apply word_ext <;> simp [lane_xor]

theorem lane_linear (k : Nat) : XorLinear (lane · k) := fun v w => lane_xor v w k

theorem dotColumn_linear (k0 k1 k2 k3 : Byte) : XorLinear (dotColumn k0 k1 k2 k3) :=
  ((((multiply_linear_right k0).comp (lane_linear 0)).xor ((multiply_linear_right k1).comp (lane_linear 1))).xor
    ((multiply_linear_right k2).comp (lane_linear 2))).xor ((multiply_linear_right k3).comp (lane_linear 3))

theorem mixCol_linear : XorLinear mixCol := fun v w => by
  simp only [mixCol, dotColumn_linear _ _ _ _ v w, ofLanes_xor]

theorem invMixCol_linear : XorLinear invMixCol := fun v w => by
  simp only [invMixCol, dotColumn_linear _ _ _ _ v w, ofLanes_xor]

/-! The two products are linear, so that they undo each other is checked on the 32 single bits of a word (R101). -/

theorem invMixCol_mixCol (w : Word) : invMixCol (mixCol w) = w :=
  (invMixCol_linear.comp mixCol_linear).ext (g := id) (fun _ _ => rfl) (by decide +kernel) w

theorem mixCol_invMixCol (w : Word) : mixCol (invMixCol w) = w :=
  (mixCol_linear.comp invMixCol_linear).ext (g := id) (fun _ _ => rfl) (by decide +kernel) w

theorem invMixColumns_mixColumns (s : List Word) : invMixColumns (mixColumns s) = s := by
  rw [invMixColumns, mixColumns, List.map_map]
  exact List.map_id'' invMixCol_mixCol s

theorem mixColumns_invMixColumns (s : List Word) : mixColumns (invMixColumns s) = s := by
  rw [mixColumns, invMixColumns, List.map_map]
  exact List.map_id'' mixCol_invMixCol s

/-! ## The engines undo each other -/

section Engines

variable {ft it : Byte → Byte} (sched : List Word) (nb r n nr : Nat) (s : List Word)

/-- Adding a round key twice adds nothing (R102). -/
theorem addRoundKey_addRoundKey : addRoundKey sched nb r (addRoundKey sched nb r s) = s := by
  refine List.ext_getElem (by simp) fun c h1 h2 => ?_
  simp [addRoundKey, h2]

/-- A table that undoes another undoes it on blocks. -/
theorem substituteBlock_substituteBlock (h : ∀ x, it (ft x) = x) :
    substituteBlock it (substituteBlock ft s) = s := by
  rw [substituteBlock, substituteBlock, List.map_map]
  exact List.map_id'' (substituteWord_substituteWord h) s

/-- The loop of InvCipher runs the rounds n down to 1 (R104 step 2). -/
theorem invCipherRounds_eq_foldl :
    invCipherRounds it sched nb n s =
      ((List.range n).map (n - ·)).foldl (fun b round => invCipherRound it sched nb round b) s := by
  induction n generalizing s with
  | zero => rfl
  | succ n ih =>
    have hrounds : (List.range (n + 1)).map (n + 1 - ·) = (n + 1) :: (List.range n).map (n - ·) := by
      simp [List.range_succ_eq_map]
    rw [invCipherRounds, ih, hrounds, List.foldl_cons]

/-- The inverse rounds undo the forward rounds, between the substitution and rotation that follow them and those that precede them
(R107). -/
theorem invCipherRounds_cipherRounds (h : ∀ x, it (ft x) = x) :
    invCipherRounds it sched nb n (shiftRows (substituteBlock ft (cipherRounds ft sched nb n s))) =
      shiftRows (substituteBlock ft s) := by
  induction n with
  | zero => rfl
  | succ n ih =>
    rw [invCipherRounds, invCipherRound, invShiftRows_shiftRows, substituteBlock_substituteBlock _ h, cipherRounds, cipherRound,
      addRoundKey_addRoundKey, invMixColumns_mixColumns, ih]

/-- The forward rounds undo the inverse rounds likewise (R108). -/
theorem cipherRounds_invCipherRounds (h : ∀ x, ft (it x) = x) :
    cipherRounds ft sched nb n (invShiftRows (substituteBlock it (invCipherRounds it sched nb n s))) =
      invShiftRows (substituteBlock it s) := by
  induction n generalizing s with
  | zero => rfl
  | succ n ih =>
    rw [cipherRounds, invCipherRounds, ih, cipherRound, invShiftRows_substituteBlock, substituteBlock_substituteBlock _ h,
      shiftRows_invShiftRows, invCipherRound, mixColumns_invMixColumns, addRoundKey_addRoundKey, invShiftRows_substituteBlock]

/-- InvCipher undoes Cipher (R107). -/
theorem invCipher_cipher (h : ∀ x, it (ft x) = x) : invCipher it sched nb nr (cipher ft sched nb nr s) = s := by
  rw [invCipher, cipher, addRoundKey_addRoundKey, invCipherRounds_cipherRounds _ _ _ _ h, invShiftRows_substituteBlock,
    invShiftRows_shiftRows, substituteBlock_substituteBlock _ h, addRoundKey_addRoundKey]

/-- Cipher undoes InvCipher (R108). -/
theorem cipher_invCipher (h : ∀ x, ft (it x) = x) : cipher ft sched nb nr (invCipher it sched nb nr s) = s := by
  rw [cipher, invCipher, addRoundKey_addRoundKey, cipherRounds_invCipherRounds _ _ _ _ h, invShiftRows_substituteBlock,
    substituteBlock_substituteBlock _ h, shiftRows_invShiftRows, addRoundKey_addRoundKey]

end Engines

/-! ## On the machine -/

section Machine

variable {s effect : State}

/-- The state after a command with a given effect has been accepted at `s` and completed, its LATENCY passed. -/
def afterRun (s effect : State) : State :=
  { effect with status := { effect.status with err := 0x0#4, done := true, busy := false }, phase := .idle, draws := s.draws + 1,
                wait := 0, inputs := s.inputs }

/-- A command that runs takes two steps, its acceptance and its completion (R113, R114). -/
theorem steps_of_runs {i : Instr} {op : Opcode} (h : Runs i op s effect) :
    ∃ t, exec i s = .next t ∧ step { t with wait := 0 } = .next (afterRun s effect) := by
  obtain ⟨t, ht, ⟨n, rfl⟩, hc⟩ := h
  exact ⟨_, ht, hc s.inputs⟩

/-- With a Cipher State, BLOCK[0..NB-1] is NB words (R28). -/
theorem activeBlock_length (h : s.Inv) (hv : s.status.valid = true) : (activeBlock s).length = s.cfg.NB :=
  List.length_take_of_le (h.blockLen ▸ (h.legal hv).nb.2)

end Machine

/-! ## The obligations -/

/-- Settles O51: by the cells, the rotations modulo NB undoing each other. -/
theorem invShiftRowsUndoesShiftRows : Obligations.InvShiftRowsUndoesShiftRows := by
  refine fun s => ⟨invShiftRows_shiftRows s, shiftRows_invShiftRows s, fun r c hr hc => ?_⟩
  rw [← natCast_colBefore (by omega), Int.toNat_natCast]
  exact cell_invShiftRows hr hc

/-- Settles O53: the columns and the product's lanes, and the round trips by linearity. -/
theorem invMixColumnsUndoesMixColumns : Obligations.InvMixColumnsUndoesMixColumns := by
  refine ⟨invMixColumns_length, fun s c hc => ?_, fun a0 a1 a2 a3 => ?_, invMixCol_mixCol, mixCol_invMixCol,
    fun s => ⟨invMixColumns_mixColumns s, mixColumns_invMixColumns s⟩⟩
  · simp [invMixColumns, List.getD, hc]
  · simp only [invMixCol, dotColumn_ofLanes]

/-- Settles O55: the loop is a fold over its rounds, and the rotation commutes with the substitution. -/
theorem invCipherRunsRoundsInReverse : Obligations.InvCipherRunsRoundsInReverse := by
  refine ⟨fun it sched nb nr s _ => ?_, fun it s => invShiftRows_substituteBlock s it⟩
  rw [invCipher, invCipherRounds_eq_foldl]
  rfl

/-- Settles O56: the counterexample's tables send every byte to 0. -/
theorem invCipherUndoesCipher : Obligations.InvCipherUndoesCipher :=
  ⟨fun _ _ h sched nb nr s _ _ => invCipher_cipher sched nb nr s h,
    fun sched nb nr s _ _ => invCipher_cipher sched nb nr s invSbox_sbox,
    fun _ => 0#8, fun _ => 0#8, [], [1#32], by decide⟩

/-- Settles O57: `cipher_invCipher`. -/
theorem cipherUndoesInvCipher : Obligations.CipherUndoesInvCipher :=
  fun _ _ h sched nb nr s _ _ => cipher_invCipher sched nb nr s h

/-- Settles O39: the two commands run, DECRYPT on the NB words that ENCRYPT wrote, and `invCipher_cipher` gives them back. -/
theorem decryptAfterEncryptRestoresBlock : Obligations.DecryptAfterEncryptRestoresBlock := by
  intro s hi hb hv htables
  obtain ⟨t, ht, hu⟩ := steps_of_runs ((encryptRunsOrIsRejected.2 s hb).2 hv)
  generalize hc : cipher (forwardTable s) s.sched s.cfg.nb.toNat s.cfg.nr.toNat (s.block.take s.cfg.nb.toNat) = c at hu
  have hlen : c.length = s.cfg.nb.toNat := by rw [← hc, cipher_length]; exact activeBlock_length hi hv
  have hback : invCipher (inverseTable s) s.sched s.cfg.nb.toNat s.cfg.nr.toNat c = s.block.take s.cfg.nb.toNat := by
    rw [← hc]; exact invCipher_cipher _ _ _ _ htables
  obtain ⟨v, hv', hw⟩ := steps_of_runs
    ((decryptRunsOrIsRejected.2 (afterRun s { s with block := c ++ s.block.drop s.cfg.nb.toNat }) rfl).2 hv)
  refine ⟨t, _, v, _, ht, hu, hv', hw, ?_, rfl, rfl, hv, rfl⟩
  calc invCipher (inverseTable s) s.sched s.cfg.nb.toNat s.cfg.nr.toNat ((c ++ s.block.drop s.cfg.nb.toNat).take s.cfg.nb.toNat)
        ++ (c ++ s.block.drop s.cfg.nb.toNat).drop s.cfg.nb.toNat
    _ = s.block.take s.cfg.nb.toNat ++ s.block.drop s.cfg.nb.toNat := by
      rw [List.take_left' hlen, List.drop_left' hlen, hback]
    _ = s.block := List.take_append_drop ..

end Sys2Proof.Machine
end
